-- ==== Sys2Proof/Word.lean ====
section
/-! DEFINITION. The words of the block (00_scope.md R8): a Byte is an 8-bit and a Word16 a 16-bit unsigned value. -/

namespace Sys2Proof

/-- An 8-bit unsigned value (R8). -/
abbrev Byte := BitVec 8

/-- A 16-bit unsigned value (R8), the width of a pixel (R201). -/
abbrev Word16 := BitVec 16

/-- A 32-bit unsigned value, the width of SET_PIXEL's coordinates (R7, 92 D4). -/
abbrev Word32 := BitVec 32

end Sys2Proof
end

