-- ==== Sys2Proof/Config.lean ====
section
/-! DEFINITION. What is fixed for the block: the panel's constants (00_scope.md R6) and the named model parameters (R7). -/

namespace Sys2Proof

/-- `W`, the native panel width in pixels (R6). -/
def nativeWidth : Nat := 96

/-- `H`, the native panel height in pixels (R6). -/
def nativeHeight : Nat := 64

/-- `LEN`, the framebuffer length in bytes: 2 × W × H (R6). -/
def fbLen : Nat := 2 * nativeWidth * nativeHeight

/-- The four display rotations (10_state.md R32). -/
inductive Rotation where
  | deg0
  | deg90
  | deg180
  | deg270
deriving DecidableEq, Repr

/-- The two logical levels of the D/C line (20_memory.md R62). -/
inductive DcLevel where
  | cmd
  | data
deriving DecidableEq, Repr

/-- The two electrical levels of an output pin (R62). -/
inductive PinLevel where
  | low
  | high
deriving DecidableEq, Repr

/-- A transport write error: a value the block never interprets (R7 `CommE`, R151). -/
structure CommE where
  code : Nat
deriving DecidableEq, Repr

/-- A pin-set error: a value the block never interprets (R7 `PinE`, R151). -/
structure PinE where
  code : Nat
deriving DecidableEq, Repr

/-- `remapByte : Rotation → Byte` (R7) as a table, so that it is plain data. -/
structure RemapTable where
  at0   : Byte
  at90  : Byte
  at180 : Byte
  at270 : Byte
deriving DecidableEq, Repr

/-- The named model parameters of R7 that the block's rules read. Their defaults are `Machine.defaultConfig`.
`Env`, `CommE` and `PinE` are `State.replies` and the two error types. -/
structure Config where
  /-- `remapByte` (92 D8, D9). -/
  remap : RemapTable
  /-- INIT's DisplayClockDiv operand (92 D10). -/
  clockDivByte : Byte
  /-- INIT's PreChargePeriod operand (92 D11). -/
  preChargeByte : Byte
  /-- INIT's VcomhDeselect operand (92 D12). -/
  vcomhByte : Byte
  /-- Whether FLUSH's window follows the rotation (92 D13). -/
  flushWindowRotated : Bool
  /-- `dcPolarity`: the electrical level of Cmd; Data is the other one (92 D3). -/
  dcCmdPin : PinLevel
deriving DecidableEq, Repr

end Sys2Proof
end

