-- ==== Sys2Proof/Machine/Params.lean ====
section
/-! DEFINITION. The packed operand bytes (30_encoding.md R94 to R98) and the default values of the model parameters (00_scope.md R7). -/

namespace Sys2Proof.Machine

/-- `{hi:4, lo:4}` (00_scope.md R8). -/
def packNibbles (hi lo : BitVec 4) : Byte := hi ++ lo

/-- `b[7:4]`. -/
def hiNibble (b : Byte) : BitVec 4 := b.extractLsb' 4 4

/-- `b[3:0]`. -/
def loNibble (b : Byte) : BitVec 4 := b.extractLsb' 0 4

/-- The DisplayClockDiv operand: "high nibble = osc, low nibble = div" (R94). -/
def clockDivOperand (div osc : BitVec 4) : Byte := packNibbles osc div

/-- The PreChargePeriod operand, `{b[3:0], a[3:0]}` (R95; the spec's decision D11). -/
def preChargeOperand (a b : BitVec 4) : Byte := packNibbles b a

/-- The RemapAndColorDepth operand, `{cd[1:0], 1, vflip, 0, 0, remap, inc}` (R96; the spec's decision D8). -/
def remapOperand (cd : BitVec 2) (vflip remap inc : Bool) : Byte :=
  cd ++ 1#1 ++ BitVec.ofBool vflip ++ 0#2 ++ BitVec.ofBool remap ++ BitVec.ofBool inc

/-- R96's colour-depth code of the RGB565 framebuffer: 65k colours. -/
def colourDepth65k : BitVec 2 := 0b01#2

/-- The default `remapByte` table, by the flags of R97 (the spec's decision D9). -/
def defaultRemap : RemapTable where
  at0   := remapOperand colourDepth65k false false false
  at90  := remapOperand colourDepth65k false true true
  at180 := remapOperand colourDepth65k true true false
  at270 := remapOperand colourDepth65k true false true

/-- The levels of VcomhDeselect (R98), as hundredths of Vref. -/
inductive VcomhLevel where
  | v044
  | v052
  | v061
  | v071
  | v083
deriving DecidableEq, Repr

/-- The level code table of R98 (the spec's decision D12). -/
def vcomhCode : VcomhLevel → Byte
  | .v044 => 0x00#8
  | .v052 => 0x10#8
  | .v061 => 0x20#8
  | .v071 => 0x30#8
  | .v083 => 0x3E#8

/-- The level a code stands for, if it is one of R98's five. -/
def vcomhLevel (code : Byte) : Option VcomhLevel :=
  if code = 0x00#8 then some .v044
  else if code = 0x10#8 then some .v052
  else if code = 0x20#8 then some .v061
  else if code = 0x30#8 then some .v071
  else if code = 0x3E#8 then some .v083
  else none

/-- The defaults of R7: remapByte 0x60, 0x63, 0x72, 0x71; clockDivByte 0x08 (div 0x8, osc 0x0); preChargeByte
0xF1 (a 0x1, b 0xF); vcomhByte 0x30 (0.71 × Vref); flushWindowRotated false; Cmd = low. -/
def defaultConfig : Config where
  remap              := defaultRemap
  clockDivByte       := clockDivOperand 0x8#4 0x0#4
  preChargeByte      := preChargeOperand 0x1#4 0xF#4
  vcomhByte          := vcomhCode .v071
  flushWindowRotated := false
  dcCmdPin           := .low

/-- `remapByte(rot)` under a configuration (R7, R97). -/
def remapByte (c : Config) : Rotation → Byte
  | .deg0   => c.remap.at0
  | .deg90  => c.remap.at90
  | .deg180 => c.remap.at180
  | .deg270 => c.remap.at270

end Sys2Proof.Machine
end

