-- ==== Sys2Proof/Syntax.lean ====
section
/-! DEFINITION. The syntax: one constructor per row of spec/opcode_table.json, and the raw words before decoding
(the request port's signals, a command's bytes, a data stream). -/

namespace Sys2Proof

/-- One row of the opcode table. The first 19 are what the block emits on the wire (30_encoding.md R100 and the
DATA format of R90), the last 11 what the host may request (R103). -/
inductive Instr where
  /-- `DisplayOn(false)`, R131. -/
  | displayOff
  /-- `DisplayOn(true)`, R132. -/
  | displayOn
  /-- `DisplayClockDiv(div, osc)`, R133. -/
  | clockDiv (div osc : BitVec 4)
  /-- `Multiplex(n)`, R134. -/
  | multiplex (n : Byte)
  /-- `DisplayOffset(n)`, R135. -/
  | displayOffset (n : Byte)
  /-- `StartLine(n)`, R136. -/
  | startLine (n : Byte)
  /-- `RemapAndColorDepth`, R137: the packed configuration byte. -/
  | remap (p : Byte)
  /-- First send of `Contrast(a, b, c)`, R138. -/
  | contrastA (a : Byte)
  /-- Second send of `Contrast(a, b, c)`, R139. -/
  | contrastB (b : Byte)
  /-- Third send of `Contrast(a, b, c)`, R140. -/
  | contrastC (c : Byte)
  /-- `PreChargePeriod(a, b)`, R141. -/
  | precharge (a b : BitVec 4)
  /-- `VcomhDeselect(level)`, R142: the level's code. -/
  | vcomh (code : Byte)
  /-- `AllOn(false)`, R143. -/
  | allOnOff
  /-- `AllOn(true)`, R144. -/
  | allOnOn
  /-- `Invert(false)`, R145. -/
  | invertOff
  /-- `Invert(true)`, R146. -/
  | invertOn
  /-- `ColumnAddress(s, e)`, R147. -/
  | columnAddress (first last : Byte)
  /-- `RowAddress(s, e)`, R148. -/
  | rowAddress (first last : Byte)
  /-- The pixel data stream of FLUSH, R232 (k = 4 and 5). -/
  | pixelData (frame : List Byte)
  /-- `new(transport, control_line, rotation)`, R170. -/
  | new (r : Rotation)
  /-- `reset(reset_line, delay)`, R173. -/
  | reset
  /-- `init()`, R176. -/
  | init
  /-- `clear()`, R200. -/
  | clear
  /-- `set_pixel(x, y, value)`, R204. -/
  | setPixel (x y : Word32) (value : Word16)
  /-- `set_draw_area(start, end)`, R230. -/
  | setDrawArea (sx sy ex ey : Byte)
  /-- `flush()`, R232. -/
  | flush
  /-- `dimensions()`, R250. -/
  | dimensions
  /-- `set_rotation(rot)`, R252. -/
  | setRotation (r : Rotation)
  /-- `rotation()`, R255. -/
  | rotation
  /-- `release()`, R256. -/
  | release
deriving DecidableEq, Repr

/-- What an instruction is to the block: a wire form that it emits (R90), the construction of the instance (R103 NEW), or
another host operation (R103). -/
inductive InstrKind where
  | wire
  | construct
  | operate
deriving DecidableEq, Repr

/-- The kind of each row. -/
def Instr.kind : Instr → InstrKind
  | .displayOff => .wire
  | .displayOn => .wire
  | .clockDiv _ _ => .wire
  | .multiplex _ => .wire
  | .displayOffset _ => .wire
  | .startLine _ => .wire
  | .remap _ => .wire
  | .contrastA _ => .wire
  | .contrastB _ => .wire
  | .contrastC _ => .wire
  | .precharge _ _ => .wire
  | .vcomh _ => .wire
  | .allOnOff => .wire
  | .allOnOn => .wire
  | .invertOff => .wire
  | .invertOn => .wire
  | .columnAddress _ _ => .wire
  | .rowAddress _ _ => .wire
  | .pixelData _ => .wire
  | .new _ => .construct
  | .reset => .operate
  | .init => .operate
  | .clear => .operate
  | .setPixel _ _ _ => .operate
  | .setDrawArea _ _ _ _ => .operate
  | .flush => .operate
  | .dimensions => .operate
  | .setRotation _ => .operate
  | .rotation => .operate
  | .release => .operate

/-- Whether an instruction is a wire form: a command of R100 or the data stream. -/
def Instr.isWire (i : Instr) : Bool := i.kind == .wire

/-- The signals of the request port (R102): `op` selects the operation, `a`, `b`, `v` and `r` carry its operands. -/
structure Request where
  op : BitVec 4
  a  : BitVec 32
  b  : BitVec 32
  v  : BitVec 16
  r  : BitVec 2
deriving DecidableEq, Repr

/-- A call of the command layer, `send(command, transport, control_line)` (40_command_layer.md R130), or of FLUSH's data
stream, by its bytes. It is no request: the request port cannot make one (R103, 92 D18; log 11). -/
inductive Call where
  | send (bytes : List Byte)
  | data (bytes : List Byte)
deriving DecidableEq, Repr

/-- A raw word, before decoding: a request at the request port (R102), the bytes of one command send (R90 CMD1,
CMD2, CMD3), or the bytes of one data stream (R90 DATA). -/
inductive Fetch where
  | request (q : Request)
  | send (bytes : List Byte)
  | data (bytes : List Byte)
deriving DecidableEq, Repr

/-- The raw word of a call. -/
def Call.word : Call → Fetch
  | .send bytes => .send bytes
  | .data bytes => .data bytes

end Sys2Proof
end

