-- ==== Sys2Proof/WellFormed.lean ====
section
/-! DEFINITION. The well-formed instructions. The operands of most forms are typed, so that every value is legal; two
operands have a check: VCOMH's level code is one of the five of R98 (40_command_layer.md R142), and the data stream has
exactly LEN bytes (30_encoding.md R90, 43_display_transfer.md R232). -/

namespace Sys2Proof

/-- The operand checks, form by form. -/
def Instr.wellFormed : Instr → Bool
  | .displayOff => true
  | .displayOn => true
  | .clockDiv _ _ => true
  | .multiplex _ => true
  | .displayOffset _ => true
  | .startLine _ => true
  | .remap _ => true
  | .contrastA _ => true
  | .contrastB _ => true
  | .contrastC _ => true
  | .precharge _ _ => true
  | .vcomh code => (Machine.vcomhLevel code).isSome
  | .allOnOff => true
  | .allOnOn => true
  | .invertOff => true
  | .invertOn => true
  | .columnAddress _ _ => true
  | .rowAddress _ _ => true
  | .pixelData frame => frame.length == fbLen
  | .new _ => true
  | .reset => true
  | .init => true
  | .clear => true
  | .setPixel _ _ _ => true
  | .setDrawArea _ _ _ _ => true
  | .flush => true
  | .dimensions => true
  | .setRotation _ => true
  | .rotation => true
  | .release => true

end Sys2Proof
end

