-- ==== Sys2Proof/Decode.lean ====
section
/-! DEFINITION. The decoder, total on every raw word and rejecting by name, and the encoder (30_encoding.md R90 to R105). -/

namespace Sys2Proof

/-- Why a raw word is no instruction. -/
inductive DecodeError where
  /-- Request op 0x0 or 0xC to 0xF (R103, R105). -/
  | reservedOp
  /-- A request operand bit that its operation does not use is not 0 (R105). -/
  | nonZeroUnused
  /-- A command send without any byte: a send holds at least an opcode (40_command_layer.md R130). -/
  | noOpcode
  /-- Byte 0 is none of the opcodes of R100 (R101). -/
  | unknownOpcode (op : Byte)
  /-- Too many or too few operand bytes for the opcode (R90, R92). -/
  | wrongLength (op : Byte)
  /-- A VCOMH operand that is no level code of R98. -/
  | notALevelCode
  /-- A data stream that is not exactly LEN bytes (R90 DATA). -/
  | wrongDataLength
deriving DecidableEq, Repr

/-! ## Rotation codes (10_state.md R32) -/

/-- `rot[1:0]`. -/
def Rotation.bits : Rotation → BitVec 2
  | .deg0   => 0b00#2
  | .deg90  => 0b01#2
  | .deg180 => 0b10#2
  | .deg270 => 0b11#2

/-- The rotation of a 2-bit code; all four are legal (R32). -/
def rotationOfBits (r : BitVec 2) : Rotation :=
  if r = 0b00#2 then .deg0 else if r = 0b01#2 then .deg90 else if r = 0b10#2 then .deg180 else .deg270

/-! ## Commands (R90 to R101) -/

/-- The length in bytes of a command, from its opcode alone (R90, R92); none for a byte outside the closed set (R101). -/
def commandLength (op : Byte) : Option Nat :=
  if op ∈ [0xAE#8, 0xAF#8, 0xA4#8, 0xA5#8, 0xA6#8, 0xA7#8] then some 1
  else if op ∈ [0xB3#8, 0xA8#8, 0xA2#8, 0xA1#8, 0xA0#8, 0x81#8, 0x82#8, 0x83#8, 0xB1#8, 0xBE#8] then some 2
  else if op ∈ [0x15#8, 0x75#8] then some 3
  else none

/-- The CMD1 forms (R90). -/
def cmd1Instr (op : Byte) : Option Instr :=
  if op = 0xAE#8 then some .displayOff
  else if op = 0xAF#8 then some .displayOn
  else if op = 0xA4#8 then some .allOnOff
  else if op = 0xA5#8 then some .allOnOn
  else if op = 0xA6#8 then some .invertOff
  else if op = 0xA7#8 then some .invertOn
  else none

/-- The CMD2 forms (R90), operand P; VCOMH takes a level code of R98 only (R142). -/
def cmd2Instr (op p : Byte) : Option Instr :=
  if op = 0xB3#8 then some (.clockDiv (Machine.loNibble p) (Machine.hiNibble p))
  else if op = 0xA8#8 then some (.multiplex p)
  else if op = 0xA2#8 then some (.displayOffset p)
  else if op = 0xA1#8 then some (.startLine p)
  else if op = 0xA0#8 then some (.remap p)
  else if op = 0x81#8 then some (.contrastA p)
  else if op = 0x82#8 then some (.contrastB p)
  else if op = 0x83#8 then some (.contrastC p)
  else if op = 0xB1#8 then some (.precharge (Machine.loNibble p) (Machine.hiNibble p))
  else if op = 0xBE#8 ∧ (Machine.vcomhLevel p).isSome then some (.vcomh p)
  else none

/-- The CMD3 forms (R90), operands S (start) and E (end), in this order (R91). -/
def cmd3Instr (op s e : Byte) : Option Instr :=
  if op = 0x15#8 then some (.columnAddress s e)
  else if op = 0x75#8 then some (.rowAddress s e)
  else none

/-- The command of a byte sequence at the command level, by the opcode map of R100. -/
def commandInstr : List Byte → Option Instr
  | [] => none
  | [op] => cmd1Instr op
  | [op, p] => cmd2Instr op p
  | [op, s, e] => cmd3Instr op s e
  | _ :: _ :: _ :: _ :: _ => none

/-- Why a byte sequence is no command. -/
def commandError : List Byte → DecodeError
  | [] => .noOpcode
  | op :: args =>
    match commandLength op with
    | none => .unknownOpcode op
    | some n => if n = args.length + 1 then .notALevelCode else .wrongLength op

/-- The command that a byte sequence at the command level stands for. -/
def decodeCommand (bytes : List Byte) : Except DecodeError Instr :=
  match commandInstr bytes with
  | some i => .ok i
  | none => .error (commandError bytes)

/-! ## Host requests (R102 to R105) -/

/-- Ops 0x0 and 0xC to 0xF are reserved (R103). -/
def reservedOp (op : BitVec 4) : Bool := op.toNat == 0 || 12 ≤ op.toNat

/-- The operand bits an operation uses, as a request whose used bits are 1 (R103); `op` is not an operand. -/
def usedBits (op : BitVec 4) : Request :=
  if op = 0x1#4 then ⟨op, 0#32, 0#32, 0#16, 0b11#2⟩
  else if op = 0x5#4 then ⟨op, 0xFFFFFFFF#32, 0xFFFFFFFF#32, 0xFFFF#16, 0#2⟩
  else if op = 0x6#4 then ⟨op, 0x0000FFFF#32, 0x0000FFFF#32, 0#16, 0#2⟩
  else if op = 0x9#4 then ⟨op, 0#32, 0#32, 0#16, 0b11#2⟩
  else ⟨op, 0#32, 0#32, 0#16, 0#2⟩

/-- "Every operand bit that a row of rule R103 does not use must be 0" (R105). -/
def unusedAreZero (q : Request) : Bool :=
  let m := usedBits q.op
  (q.a &&& ~~~m.a) == 0#32 && (q.b &&& ~~~m.b) == 0#32 && (q.v &&& ~~~m.v) == 0#16 && (q.r &&& ~~~m.r) == 0#2

/-- The operation of a request whose op is not reserved, with the operands of R103. -/
def requestInstr (q : Request) : Except DecodeError Instr :=
  if q.op = 0x1#4 then .ok (.new (rotationOfBits q.r))
  else if q.op = 0x2#4 then .ok .reset
  else if q.op = 0x3#4 then .ok .init
  else if q.op = 0x4#4 then .ok .clear
  else if q.op = 0x5#4 then .ok (.setPixel q.a q.b q.v)
  else if q.op = 0x6#4 then
    .ok (.setDrawArea (q.a.extractLsb' 0 8) (q.a.extractLsb' 8 8) (q.b.extractLsb' 0 8) (q.b.extractLsb' 8 8))
  else if q.op = 0x7#4 then .ok .flush
  else if q.op = 0x8#4 then .ok .dimensions
  else if q.op = 0x9#4 then .ok (.setRotation (rotationOfBits q.r))
  else if q.op = 0xA#4 then .ok .rotation
  else if q.op = 0xB#4 then .ok .release
  else .error .reservedOp

/-- A request's operation: reserved ops are rejected first, then non-zero unused operand bits (R105, 60_exceptions.md R277). -/
def decodeRequest (q : Request) : Except DecodeError Instr :=
  if reservedOp q.op then .error .reservedOp
  else if unusedAreZero q then requestInstr q
  else .error .nonZeroUnused

/-- A data stream is exactly LEN bytes (R90 DATA). -/
def decodeData (bytes : List Byte) : Except DecodeError Instr :=
  if bytes.length == fbLen then .ok (.pixelData bytes) else .error .wrongDataLength

/-- The instruction a raw word stands for. -/
def decode : Fetch → Except DecodeError Instr
  | .request q => decodeRequest q
  | .send bytes => decodeCommand bytes
  | .data bytes => decodeData bytes

/-! ## The encoder -/

/-- A request without operands. -/
def plainRequest (op : BitVec 4) : Fetch := .request ⟨op, 0#32, 0#32, 0#16, 0#2⟩

/-- Two Byte coordinates in one operand: x in [7:0], y in [15:8], the rest 0 (R103 SET_DRAW_AREA). -/
def packPoint (x y : Byte) : BitVec 32 := 0#16 ++ (y ++ x)

/-- The raw word of an instruction: the byte forms of R100, the data stream, the request encodings of R103. -/
def encode : Instr → Fetch
  | .displayOff => .send [0xAE#8]
  | .displayOn => .send [0xAF#8]
  | .clockDiv div osc => .send [0xB3#8, Machine.clockDivOperand div osc]
  | .multiplex n => .send [0xA8#8, n]
  | .displayOffset n => .send [0xA2#8, n]
  | .startLine n => .send [0xA1#8, n]
  | .remap p => .send [0xA0#8, p]
  | .contrastA a => .send [0x81#8, a]
  | .contrastB b => .send [0x82#8, b]
  | .contrastC c => .send [0x83#8, c]
  | .precharge a b => .send [0xB1#8, Machine.preChargeOperand a b]
  | .vcomh code => .send [0xBE#8, code]
  | .allOnOff => .send [0xA4#8]
  | .allOnOn => .send [0xA5#8]
  | .invertOff => .send [0xA6#8]
  | .invertOn => .send [0xA7#8]
  | .columnAddress s e => .send [0x15#8, s, e]
  | .rowAddress s e => .send [0x75#8, s, e]
  | .pixelData frame => .data frame
  | .new r => .request ⟨0x1#4, 0#32, 0#32, 0#16, r.bits⟩
  | .reset => plainRequest 0x2#4
  | .init => plainRequest 0x3#4
  | .clear => plainRequest 0x4#4
  | .setPixel x y v => .request ⟨0x5#4, x, y, v, 0#2⟩
  | .setDrawArea sx sy ex ey => .request ⟨0x6#4, packPoint sx sy, packPoint ex ey, 0#16, 0#2⟩
  | .flush => plainRequest 0x7#4
  | .dimensions => plainRequest 0x8#4
  | .setRotation r => .request ⟨0x9#4, 0#32, 0#32, 0#16, r.bits⟩
  | .rotation => plainRequest 0xA#4
  | .release => plainRequest 0xB#4

/-! ## Words numbered as spec/opcode_table.json numbers them

DESIGN CHOICE (log 3): the table gives a request only its op; the word lays the port's signals out from bit 0 up, op
in [3:0], [7:4] zero, a in [39:8], b in [71:40], v in [87:72], r in [89:88]. A command's byte 0 is in [7:0], its
operand bytes follow. No opcode of R100 is below 0x10, so byte 0 tells the two instruction sets apart. -/

/-- The `n` bytes of `w`, the byte of bits [7:0] first. -/
def bytesOfNat : Nat → Nat → List Byte
  | 0, _ => []
  | n + 1, w => BitVec.ofNat 8 w :: bytesOfNat n (w / 256)

/-- The raw word of a table word: a data stream where the row has LEN bytes, a request where byte 0 is below 0x10, else
a command of the length its opcode gives; non-zero bits past that length stay, as one more byte, and are then rejected. -/
def tableWord (nbits w : Nat) : Fetch :=
  if nbits = 8 * fbLen then .data (bytesOfNat fbLen w)
  else if w % 256 < 16 then
    if w < 2 ^ 90 then
      .request ⟨BitVec.ofNat 4 w, BitVec.ofNat 32 (w / 2 ^ 8), BitVec.ofNat 32 (w / 2 ^ 40),
        BitVec.ofNat 16 (w / 2 ^ 72), BitVec.ofNat 2 (w / 2 ^ 88)⟩
    else .send (bytesOfNat 12 w)
  else
    let n := (commandLength (BitVec.ofNat 8 w)).getD 1
    if w < 2 ^ (8 * n) then .send (bytesOfNat n w) else .send (bytesOfNat (n + 1) w)

/-- The instruction the decoder reads from a table word, none where it rejects it. -/
def decodeTableWord (nbits w : Nat) : Option Instr :=
  match decode (tableWord nbits w) with
  | .ok i => some i
  | .error _ => none

end Sys2Proof
end

