-- ==== Sys2Proof/Machine/State.lean ====
section
/-! DEFINITION. The state of the block (10_state.md R30 to R42), the alphabet of its external actions (20_memory.md R62),
and the reasons a step can stop. All of it is plain data. -/

namespace Sys2Proof.Machine

/-- The lifecycle of the block's single instance (R31). -/
inductive Life where
  /-- Power-up: no instance. -/
  | absent
  /-- NEW has completed. -/
  | live
  /-- RELEASE has completed. -/
  | released
  /-- A sticky fault was raised (60_exceptions.md R272). -/
  | faulted
deriving DecidableEq, Repr

/-- The D/C latch: the level last driven with a successful answer, or Unknown (R33; log 26). -/
inductive DcLatch where
  | unknown
  | driven (l : DcLevel)
deriving DecidableEq, Repr

/-- An external action (R62). -/
inductive Action where
  | dcSet (l : DcLevel)
  | write (bytes : List Byte)
  | rstSet (l : PinLevel)
  | delay (ms : Nat)
deriving DecidableEq, Repr

/-- The environment's answer to an action (R62). The number names the error value: a `CommE` for a Write, a `PinE` for a
pin action (log 6). -/
inductive Answer where
  | ok
  | err (e : Nat)
deriving DecidableEq, Repr

/-- One entry of the action trace: an emitted action with the answer the environment gave (R60). -/
structure Event where
  action : Action
  answer : Answer
deriving DecidableEq, Repr

/-- The sequencer: Idle, or Busy(op, k) with k the index of the next external action of `op` (R34). The operation is
held with its operands (log 8). -/
inductive Seq where
  | idle
  | busy (op : Instr) (k : Nat)
deriving DecidableEq, Repr

/-- The value of the response register, once an operation has completed (R35). -/
inductive Resp where
  /-- `Ok(())`. -/
  | okUnit
  /-- `Ok((w, h))`, from DIMENSIONS. -/
  | okDims (w h : Byte)
  /-- `Ok(r)`, from ROTATION. -/
  | okRot (r : Rotation)
  /-- `Err(CommunicationError, e)`. -/
  | commErr (e : CommE)
  /-- `Err(PinError, e)`. -/
  | pinErr (e : PinE)
deriving DecidableEq, Repr

/-- The framebuffer (R36): (offset, byte) pairs, offsets strictly rising, no byte 0x00; an offset that is not listed
reads as 0x00. -/
abbrev Memory := List Host.Cell

/-- The state of the one block (log 25). The first six fields are the spec's (R30), the last five the model's own. -/
structure State where
  /-- Lifecycle (R31). -/
  life : Life
  /-- Rotation register (R32). -/
  rot : Rotation
  /-- D/C latch (R33). -/
  dc : DcLatch
  /-- Sequencer (R34). -/
  seq : Seq
  /-- Response register; none until an operation has completed (R35). -/
  resp : Option Resp
  /-- Framebuffer (R36). -/
  fb : Memory
  /-- The answered external actions, oldest first (20_memory.md R60; log 9). -/
  trace : List Event
  /-- The requests the host has presented and the block has not yet taken, oldest first (30_encoding.md R104; log 4). The
  port carries requests and nothing else (R102, R103). -/
  inbox : List Request
  /-- Calls made at the command layer by themselves, outside any host operation, oldest first. The block never makes one:
  the list is empty at power-up, no step adds to it, and the request port cannot reach it (R103, 92 D18; log 11). -/
  calls : List Call
  /-- The answers the environment will give, oldest first; where they run out it never answers (92 D16; log 5). -/
  replies : List Answer
  /-- The model parameters of 00_scope.md R7; no step writes them (log 10). -/
  cfg : Config
deriving DecidableEq, Repr

/-- Power-up (R42): life Absent, dc Unknown, seq Idle, resp none. DESIGN CHOICE: rot is 0° (log 1) and every byte of fb
reads 0x00 (log 2), where R42 says "unspecified; no rule reads it"; the model's own lists are empty (logs 4, 5, 9, 11), and
the parameters are R7's defaults (log 10). -/
def State.reset : State where
  life    := .absent
  rot     := .deg0
  dc      := .unknown
  seq     := .idle
  resp    := none
  fb      := []
  trace   := []
  inbox   := []
  calls   := []
  replies := []
  cfg     := defaultConfig

/-- The ways the model stops that the spec does not have. Neither is reached from reset (log 20). The spec's own sticky
fault is no entry here: it is a next state with `life` Faulted (log 15). -/
inductive Fault where
  /-- Raised by `resume` where seq = Busy(op, k) and `op` has no action k (10_state.md R34 rules such a state out). Safe. -/
  | seqOutOfRange
  /-- Raised by `memWrite` for bytes outside 0..LEN-1 (20_memory.md R61: no such byte exists). Safe. -/
  | outsideFramebuffer (addr : Nat)
deriving DecidableEq, Repr

/-- The requests that have no meaning (60_exceptions.md R273), and the model's own. A refusal is the run's refused mark:
the run has no later state (log 14). -/
inductive Refusal where
  /-- An instruction without a meaning yet: none is left. Safe. -/
  | notModelled (mnemonic : String)
  /-- A request with op 0x0 or 0xC to 0xF: raised by the request gate (30_encoding.md R104, R105). Safe. -/
  | reservedOp
  /-- A request with a non-zero unused operand bit: raised by the request gate (R105). Safe. -/
  | nonZeroUnused
  /-- An operation other than NEW while life is Absent or Released: raised by the request gate (R104). Safe. -/
  | noInstance
  /-- NEW while life = Live: raised by the request gate (R104). Safe. -/
  | alreadyConstructed
  /-- Any request while life = Faulted: raised by the request gate (R104). Safe. -/
  | afterFault
  /-- Bytes of a call of the command layer that are no command of the closed set and no data stream (R101): raised by
  `fetchDecode` (log 11). The block itself never produces such bytes. Safe. -/
  | notACommand
deriving DecidableEq, Repr

end Sys2Proof.Machine
end

