-- ==== Sys2Proof/Machine/Ops.lean ====
section
/-! DEFINITION. The operations every meaning shares: the framebuffer accesses (00_scope.md R10), the request gate
(30_encoding.md R104, R105), emitting an action (20_memory.md R62, 10_state.md R33 to R35), running an action list, and
the sticky fault with its counterpart, the end with a reported error (60_exceptions.md R272, R274). -/

namespace Sys2Proof.Machine

open Host (Outcome)

/-! ## The framebuffer (10_state.md R36, 20_memory.md R61, R64) -/

/-- What a byte that the list does not name reads as: 0x00, the value NEW and CLEAR give every byte (R36). -/
def Memory.unlisted : Byte := 0x00#8

/-- `fb[i]`. -/
def Memory.read : Memory → Nat → Byte
  | [], _ => Memory.unlisted
  | (j, c) :: rest, i => if i = j then c else Memory.read rest i

/-- `fb[i] <- b`, in the canonical form. -/
def Memory.put : Memory → Nat → Byte → Memory
  | [], i, b => if b = Memory.unlisted then [] else [(i, b)]
  | (j, c) :: rest, i, b =>
    if i < j then (if b = Memory.unlisted then (j, c) :: rest else (i, b) :: (j, c) :: rest)
    else if i = j then (if b = Memory.unlisted then rest else (i, b) :: rest)
    else (j, c) :: Memory.put rest i b

/-- The framebuffer with every byte 0x00. -/
def Memory.zero : Memory := []

/-- Offsets rise strictly from `lo`, stay below LEN, and no listed byte is the unlisted one. -/
def Memory.wfFrom : Nat → Memory → Bool
  | _, [] => true
  | lo, (j, c) :: rest => decide (lo ≤ j) && decide (j < fbLen) && c != Memory.unlisted && Memory.wfFrom (j + 1) rest

/-- The canonical form: equal framebuffers are equal lists. -/
def Memory.wf (m : Memory) : Bool := Memory.wfFrom 0 m

/-- `MemRead(addr, n)` (R10): the n bytes at addr, the lowest offset first. -/
def Memory.bytes (m : Memory) (addr : Nat) : Nat → List Byte
  | 0 => []
  | n + 1 => m.read addr :: m.bytes (addr + 1) n

/-- The bytes of a list at addr, addr + 1, and so on. -/
def Memory.putBytes : Memory → Nat → List Byte → Memory
  | m, _, [] => m
  | m, addr, b :: bs => (m.put addr b).putBytes (addr + 1) bs

/-- The two bytes of a pixel value in the order they are stored: v[15:8], then v[7:0] (R64, R201). -/
def pixelBytes (v : Word16) : List Byte := [v.extractLsb' 8 8, v.extractLsb' 0 8]

/-- `MemWrite(addr, n, v)` (R10) with v given as its n bytes in storing order. Only the bytes 0..LEN-1 exist (R61). -/
def memWrite (addr : Nat) (bs : List Byte) (s : State) : Outcome State Fault Refusal :=
  if addr + bs.length ≤ fbLen then .next { s with fb := s.fb.putBytes addr bs }
  else .fault (.outsideFramebuffer addr)

/-! ## Ends of an operation -/

/-- `return v` (R10): `resp <- Ok(v)` and `seq <- Idle` (R34). -/
def State.respond (v : Resp) (s : State) : State := { s with resp := some v, seq := .idle }

/-- `raise Fault(reason)`: `life <- Faulted`, `seq <- Idle`; resp is not written and nothing is emitted (R272). -/
def State.raiseFault (s : State) : State := { s with life := .faulted, seq := .idle }

/-- What NEW(r) leaves (R42, 41_display_setup.md R170), `resp` and `seq` apart. -/
def State.construct (r : Rotation) (s : State) : State :=
  { s with fb := Memory.zero, rot := r, dc := .unknown, life := .live }

/-- The end of an operation whose last action was answered Ok (R34). A host operation returns `Ok(())`; a bare send has
"No return value on success" and writes no `resp` (40_command_layer.md R130, R150). -/
def State.complete (op : Instr) (s : State) : State :=
  if op.isWire then { s with seq := .idle } else s.respond .okUnit

/-! ## Emitting actions (R62) -/

/-- What an action meets: an Ok, an error with the response it makes, or no answer. -/
inductive Reply where
  | ok (rest : List Answer)
  | err (e : Nat) (resp : Resp) (rest : List Answer)
  | silent
deriving DecidableEq, Repr

/-- The environment's next answer to an action. A Delay is infallible and takes none of the answers (R62); a failed
Write is a CommunicationError, a failed pin action a PinError, the error value passed on unchanged (60_exceptions.md
R270, 40_command_layer.md R151). -/
def nextReply : Action → List Answer → Reply
  | .delay _, rs => .ok rs
  | .write _, .ok :: rs => .ok rs
  | .write _, .err e :: rs => .err e (.commErr ⟨e⟩) rs
  | .write _, [] => .silent
  | .dcSet _, .ok :: rs => .ok rs
  | .dcSet _, .err e :: rs => .err e (.pinErr ⟨e⟩) rs
  | .dcSet _, [] => .silent
  | .rstSet _, .ok :: rs => .ok rs
  | .rstSet _, .err e :: rs => .err e (.pinErr ⟨e⟩) rs
  | .rstSet _, [] => .silent

/-- `dc` after an action answered Ok (R33). -/
def dcAfterOk : Action → DcLatch → DcLatch
  | .dcSet l, _ => .driven l
  | .write _, d => d
  | .rstSet _, d => d
  | .delay _, d => d

/-- `dc` after an action answered Err (R33). -/
def dcAfterErr : Action → DcLatch → DcLatch
  | .dcSet _, _ => .unknown
  | .write _, d => d
  | .rstSet _, d => d
  | .delay _, d => d

/-- Action k of `op` answered Ok: it is on the trace, and k advances by one (R34). -/
def State.answeredOk (op : Instr) (k : Nat) (a : Action) (rest : List Answer) (s : State) : State :=
  { s with replies := rest, dc := dcAfterOk a s.dc, trace := s.trace ++ [⟨a, .ok⟩], seq := .busy op (k + 1) }

/-- The end with a reported error: `resp <- Err(kind, e)`, `seq <- Idle`, every earlier write stays (R274). -/
def State.answeredErr (a : Action) (e : Nat) (v : Resp) (rest : List Answer) (s : State) : State :=
  { s with replies := rest, dc := dcAfterErr a s.dc, trace := s.trace ++ [⟨a, .err e⟩], resp := some v, seq := .idle }

/-- Action k of `op` is emitted and not answered: the block stays at Busy(op, k) (R275). -/
def State.waiting (op : Instr) (k : Nat) (s : State) : State := { s with seq := .busy op k }

/-- Runs the actions of `op` from number k on, `Emit` and `Try` of R10: the first error ends the operation, and an action
without an answer leaves it where it is. -/
def runActions (op : Instr) : Nat → List Action → State → State
  | _, [], s => s.complete op
  | k, a :: as, s =>
    match nextReply a s.replies with
    | .ok rest => runActions op (k + 1) as (s.answeredOk op k a rest)
    | .err e v rest => s.answeredErr a e v rest
    | .silent => s.waiting op k

/-! ## The request gate (30_encoding.md R104, R105) -/

/-- What the gate says of an operation by the lifecycle alone. -/
def lifeGate (isNew : Bool) : Life → Option Refusal
  | .faulted => some .afterFault
  | .live => if isNew then some .alreadyConstructed else none
  | .absent => if isNew then none else some .noInstance
  | .released => if isNew then none else some .noInstance

/-- What the gate says of an instruction. The wire forms pass no gate: they are no requests (R101, R150; log 11). -/
def instrGate (i : Instr) (l : Life) : Option Refusal :=
  match i.kind with
  | .wire => none
  | .construct => lifeGate true l
  | .operate => lifeGate false l

/-- Accepts an operation (R104): nothing while another one is in progress (it is held, log 16), the gate's refusal, or
the operation's rule. -/
def accept (i : Instr) (rule : State → Outcome State Fault Refusal) (s : State) : Outcome State Fault Refusal :=
  match s.seq with
  | .busy _ _ => .next s
  | .idle =>
    match instrGate i s.life with
    | some r => .refused r
    | none => rule s

/-- The gate of a request as the port presents it, in the order of R277: AfterFault, ReservedOp, AlreadyConstructed or
NoInstance, and then the unused bits. -/
def requestGate (q : Request) (l : Life) : Option Refusal :=
  if l = .faulted then some .afterFault
  else if reservedOp q.op then some .reservedOp
  else match lifeGate (q.op == 0x1#4) l with
    | some r => some r
    | none => if unusedAreZero q then none else some .nonZeroUnused

/-- The refusal a decoding error stands for. -/
def refusalOf : DecodeError → Refusal
  | .reservedOp => .reservedOp
  | .nonZeroUnused => .nonZeroUnused
  | .noOpcode => .notACommand
  | .unknownOpcode _ => .notACommand
  | .wrongLength _ => .notACommand
  | .notALevelCode => .notACommand
  | .wrongDataLength => .notACommand

/-- The raw word an Idle block takes next, with the state after taking it: a call of the command layer where one is made,
else the oldest request at the port (log 11), else none. -/
def State.take (s : State) : Option (Fetch × State) :=
  match s.calls with
  | c :: cs => some (c.word, { s with calls := cs })
  | [] =>
    match s.inbox with
    | q :: rest => some (.request q, { s with inbox := rest })
    | [] => none

/-- Decoding a raw word: the gate first where it is a request, then the decoder. -/
def fetchDecode (f : Fetch) (l : Life) : Except Refusal Instr :=
  match (match f with
    | .request q => requestGate q l
    | .send _ => none
    | .data _ => none) with
  | some r => .error r
  | none =>
    match decode f with
    | .ok i => .ok i
    | .error e => .error (refusalOf e)

end Sys2Proof.Machine
end

