-- ==== Sys2Proof/Machine/Operands.lean ====
section
/-! DEFINITION. What the operations compute from their operands: the pixel-index mapper (42_display_pixels.md R202 to R208),
SET_DRAW_AREA's order check (43_display_transfer.md R230, R231), the logical dimensions (44_display_rotation.md R250), FLUSH's
window (R233). -/

namespace Sys2Proof.Machine

/-- Whether logical rows are native columns: 90° and 270° (10_state.md R32). -/
def isTurned : Rotation → Bool
  | .deg0 => false
  | .deg90 => true
  | .deg180 => false
  | .deg270 => true

/-- The offset before the final index check: the axis check of the rotation, then `(y * W + x) * 2` or `(y * H + x) * 2`
in exact arithmetic (R203; 92 D5, log 17). The checks are asymmetric: x against W at 0° and 180°, y against W at 90° and
270° (R207). -/
def axisIndex (rot : Rotation) (x y : Nat) : Option Nat :=
  if isTurned rot then
    if y ≥ nativeWidth then none else some ((y * nativeHeight + x) * 2)
  else
    if x ≥ nativeWidth then none else some ((y * nativeWidth + x) * 2)

/-- `pixelIndex(rot, x, y)` (R203): the byte offset of a logical pixel, none where the write is dropped. The final check
accepts i exactly when i + 1 ≤ LEN - 1 (R205; 90_conflicts.md C1). -/
def pixelIndex (rot : Rotation) (x y : Nat) : Option Nat :=
  match axisIndex rot x y with
  | none => none
  | some i => if i + 1 > fbLen - 1 then none else some i

/-- SET_DRAW_AREA's order check: ex > sx and ey > sy (R230). -/
def inOrder (sx sy ex ey : Byte) : Bool := decide (sx.toNat < ex.toNat) && decide (sy.toNat < ey.toNat)

/-- The last column or row of a window whose end is exclusive: end - 1 (R230). After the order check it does not wrap. -/
def lastOf (e : Byte) : Byte := e - 1#8

/-- The logical (width, height) of a rotation (R250). -/
def logicalDims (rot : Rotation) : Byte × Byte :=
  if isTurned rot then (64#8, 96#8) else (96#8, 64#8)

/-- The exclusive end of FLUSH's window: the native (96, 64), unless the parameter `flushWindowRotated` is set and the
rotation is 90° or 270° (R233; 92 D13). -/
def flushWindow (c : Config) (rot : Rotation) : Byte × Byte :=
  if c.flushWindowRotated && isTurned rot then (64#8, 96#8) else (96#8, 64#8)

end Sys2Proof.Machine
end

