-- ==== Sys2Proof/Machine/Actions.lean ====
section
/-! DEFINITION. The action list of every operation (10_state.md R34, 70_reset_and_hazards.md R311), and running it: `start`
from action 0, `resume` from action k. Every list is fixed by its rule (20_memory.md R74). -/

namespace Sys2Proof.Machine

open Host (Outcome)

/-- The two actions of a wire form: `Send(bytes)` is DcSet(Cmd), then one Write of all the command's bytes
(40_command_layer.md R130); the data stream is DcSet(Data), then one Write (43_display_transfer.md R232). -/
def wireActions (i : Instr) : List Action :=
  match encode i with
  | .send bytes => [.dcSet .cmd, .write bytes]
  | .data bytes => [.dcSet .data, .write bytes]
  | .request _ => []

/-- `Contrast(a, b, c)` is three sends, in channel order (R149; 90_conflicts.md C4). -/
def contrastCommands (a b c : Byte) : List Instr := [.contrastA a, .contrastB b, .contrastC c]

/-- The 14 commands of INIT, in order (41_display_setup.md R176, R177). -/
def initCommands (c : Config) (rot : Rotation) : List Instr :=
  [.displayOff,
   .clockDiv (loNibble c.clockDivByte) (hiNibble c.clockDivByte),
   .multiplex 63#8,
   .displayOffset 0#8,
   .startLine 0#8,
   .remap (remapByte c rot)]
  ++ contrastCommands 0x91#8 0x50#8 0x7D#8 ++
  [.precharge (loNibble c.preChargeByte) (hiNibble c.preChargeByte),
   .vcomh c.vcomhByte,
   .allOnOff,
   .invertOff,
   .displayOn]

/-- The commands of SET_DRAW_AREA: ColumnAddress(start.x, end.x - 1), then RowAddress(start.y, end.y - 1) (R230). -/
def drawAreaCommands (sx sy ex ey : Byte) : List Instr := [.columnAddress sx (lastOf ex), .rowAddress sy (lastOf ey)]

/-- FLUSH: the full window, then the whole framebuffer as one data stream (R232, R233). -/
def flushCommands (c : Config) (rot : Rotation) (fb : Memory) : List Instr :=
  drawAreaCommands 0#8 0#8 (flushWindow c rot).1 (flushWindow c rot).2 ++ [.pixelData (fb.bytes 0 fbLen)]

/-- RESET: high, 1 ms, low, 10 ms, high (41_display_setup.md R173). -/
def resetActions : List Action := [.rstSet .high, .delay 1, .rstSet .low, .delay 10, .rstSet .high]

/-- The external actions of an operation, number 0 first. -/
def actionsOf (i : Instr) (s : State) : List Action :=
  match i with
  | .displayOff => wireActions i
  | .displayOn => wireActions i
  | .clockDiv _ _ => wireActions i
  | .multiplex _ => wireActions i
  | .displayOffset _ => wireActions i
  | .startLine _ => wireActions i
  | .remap _ => wireActions i
  | .contrastA _ => wireActions i
  | .contrastB _ => wireActions i
  | .contrastC _ => wireActions i
  | .precharge _ _ => wireActions i
  | .vcomh _ => wireActions i
  | .allOnOff => wireActions i
  | .allOnOn => wireActions i
  | .invertOff => wireActions i
  | .invertOn => wireActions i
  | .columnAddress _ _ => wireActions i
  | .rowAddress _ _ => wireActions i
  | .pixelData _ => wireActions i
  | .new _ => []
  | .reset => resetActions
  | .init => (initCommands s.cfg s.rot).flatMap wireActions
  | .clear => []
  | .setPixel _ _ _ => []
  | .setDrawArea sx sy ex ey =>
    if inOrder sx sy ex ey then (drawAreaCommands sx sy ex ey).flatMap wireActions else []
  | .flush => (flushCommands s.cfg s.rot s.fb).flatMap wireActions
  | .dimensions => []
  | .setRotation r => wireActions (.remap (remapByte s.cfg r))
  | .rotation => []
  | .release => []

/-- `seq <- Busy(op, 0)`, and the actions run (R34). -/
def start (i : Instr) (s : State) : Outcome State Fault Refusal :=
  .next (runActions i 0 (actionsOf i s) s)

/-- A block at Busy(op, k) goes on with action k (R34), which it has emitted and which has no answer yet (R275). -/
def resume (op : Instr) (k : Nat) (s : State) : Outcome State Fault Refusal :=
  match (actionsOf op s).drop k with
  | [] => .fault .seqOutOfRange
  | as => .next (runActions op k as s)

/-- The action the block has emitted and waits on (00_scope.md R10 `Emit` "blocks until the environment answers"). -/
def State.outstanding (s : State) : Option Action :=
  match s.seq with
  | .idle => none
  | .busy op k => (actionsOf op s)[k]?

end Sys2Proof.Machine
end

