-- ==== Sys2Proof/Machine/Commands.lean ====
section
/-! DEFINITION. The wire commands (40_command_layer.md R131 to R148), each one Send (R130) of its bytes. They run as calls of
the command layer, `send(command, transport, control_line)` (log 11). -/

namespace Sys2Proof.Machine

open Host (Outcome)

/-- DISPLAY_OFF: `Send([0xAE])` (R131). -/
def execDisplayOff (s : State) : Outcome State Fault Refusal :=
  accept .displayOff (start .displayOff) s

/-- DISPLAY_ON: `Send([0xAF])` (R132). -/
def execDisplayOn (s : State) : Outcome State Fault Refusal :=
  accept .displayOn (start .displayOn) s

/-- CLOCK_DIV: `Send([0xB3, (osc << 4) | div])` (R133). -/
def execClockDiv (div osc : BitVec 4) (s : State) : Outcome State Fault Refusal :=
  accept (.clockDiv div osc) (start (.clockDiv div osc)) s

/-- MULTIPLEX: `Send([0xA8, n])` (R134). -/
def execMultiplex (n : Byte) (s : State) : Outcome State Fault Refusal :=
  accept (.multiplex n) (start (.multiplex n)) s

/-- DISPLAY_OFFSET: `Send([0xA2, n])` (R135). -/
def execDisplayOffset (n : Byte) (s : State) : Outcome State Fault Refusal :=
  accept (.displayOffset n) (start (.displayOffset n)) s

/-- START_LINE: `Send([0xA1, n])` (R136). -/
def execStartLine (n : Byte) (s : State) : Outcome State Fault Refusal :=
  accept (.startLine n) (start (.startLine n)) s

/-- REMAP: `Send([0xA0, p])`, p the packed configuration byte; the callers pass `remapByte(r)` (log 12) (R137). -/
def execRemap (p : Byte) (s : State) : Outcome State Fault Refusal :=
  accept (.remap p) (start (.remap p)) s

/-- CONTRAST_A: `Send([0x81, a])` (R138). -/
def execContrastA (a : Byte) (s : State) : Outcome State Fault Refusal :=
  accept (.contrastA a) (start (.contrastA a)) s

/-- CONTRAST_B: `Send([0x82, b])` (R139). -/
def execContrastB (b : Byte) (s : State) : Outcome State Fault Refusal :=
  accept (.contrastB b) (start (.contrastB b)) s

/-- CONTRAST_C: `Send([0x83, c])` (R140). -/
def execContrastC (c : Byte) (s : State) : Outcome State Fault Refusal :=
  accept (.contrastC c) (start (.contrastC c)) s

/-- PRECHARGE: `Send([0xB1, (b << 4) | a])` (R141). -/
def execPrecharge (a b : BitVec 4) (s : State) : Outcome State Fault Refusal :=
  accept (.precharge a b) (start (.precharge a b)) s

/-- VCOMH: `Send([0xBE, code(level)])` (R142). -/
def execVcomh (code : Byte) (s : State) : Outcome State Fault Refusal :=
  accept (.vcomh code) (start (.vcomh code)) s

/-- ALL_ON_OFF: `Send([0xA4])` (R143). -/
def execAllOnOff (s : State) : Outcome State Fault Refusal :=
  accept .allOnOff (start .allOnOff) s

/-- ALL_ON_ON: `Send([0xA5])` (R144). -/
def execAllOnOn (s : State) : Outcome State Fault Refusal :=
  accept .allOnOn (start .allOnOn) s

/-- INVERT_OFF: `Send([0xA6])` (R145). -/
def execInvertOff (s : State) : Outcome State Fault Refusal :=
  accept .invertOff (start .invertOff) s

/-- INVERT_ON: `Send([0xA7])` (R146). -/
def execInvertOn (s : State) : Outcome State Fault Refusal :=
  accept .invertOn (start .invertOn) s

/-- COLUMN_ADDRESS: `Send([0x15, s, e])` (R147). -/
def execColumnAddress (first last : Byte) (s : State) : Outcome State Fault Refusal :=
  accept (.columnAddress first last) (start (.columnAddress first last)) s

/-- ROW_ADDRESS: `Send([0x75, s, e])` (R148). -/
def execRowAddress (first last : Byte) (s : State) : Outcome State Fault Refusal :=
  accept (.rowAddress first last) (start (.rowAddress first last)) s

end Sys2Proof.Machine
end

