-- ==== Sys2Proof/Machine/Lifecycle.lean ====
section
/-! DEFINITION. The queries DIMENSIONS and ROTATION, SET_ROTATION, and RELEASE (44_display_rotation.md). -/

namespace Sys2Proof.Machine

open Host (Outcome)

/-- The rule of DIMENSIONS once accepted: `Ok((w, h))` of the rotation; nothing else changes (R250, R251). -/
def dimensionsRule (s : State) : Outcome State Fault Refusal :=
  .next (s.respond (.okDims (logicalDims s.rot).1 (logicalDims s.rot).2))

/-- DIMENSIONS (R250). -/
def execDimensions (s : State) : Outcome State Fault Refusal :=
  accept .dimensions dimensionsRule s

/-- The rule of SET_ROTATION once accepted: `rot <- r` before any action, then the remap command (R252, R253). -/
def setRotationRule (r : Rotation) (s : State) : Outcome State Fault Refusal :=
  start (.setRotation r) { s with rot := r }

/-- SET_ROTATION (R252). -/
def execSetRotation (r : Rotation) (s : State) : Outcome State Fault Refusal :=
  accept (.setRotation r) (setRotationRule r) s

/-- The rule of ROTATION once accepted: `Ok(rot)`; nothing else changes (R255, R251). -/
def rotationRule (s : State) : Outcome State Fault Refusal :=
  .next (s.respond (.okRot s.rot))

/-- ROTATION (R255). -/
def execRotation (s : State) : Outcome State Fault Refusal :=
  accept .rotation rotationRule s

/-- The rule of RELEASE once accepted: `life <- Released`, `Ok(())`, no action (R256). -/
def releaseRule (s : State) : Outcome State Fault Refusal :=
  .next ({ s with life := .released }.respond .okUnit)

/-- RELEASE (R256). -/
def execRelease (s : State) : Outcome State Fault Refusal :=
  accept .release releaseRule s

end Sys2Proof.Machine
end

