-- ==== Sys2Proof/Machine/Pixels.lean ====
section
/-! DEFINITION. The framebuffer operations CLEAR and SET_PIXEL (42_display_pixels.md). -/

namespace Sys2Proof.Machine

open Host (Outcome)

/-- The rule of CLEAR once accepted: every byte of fb 0x00, `Ok(())` (R200). -/
def clearRule (s : State) : Outcome State Fault Refusal :=
  .next ({ s with fb := Memory.zero }.respond .okUnit)

/-- CLEAR (R200). -/
def execClear (s : State) : Outcome State Fault Refusal :=
  accept .clear clearRule s

/-- The rule of SET_PIXEL once accepted: the two bytes of the value at the mapped offset, or nothing; `Ok(())` either
way (R204). -/
def setPixelRule (x y : Word32) (value : Word16) (s : State) : Outcome State Fault Refusal :=
  match pixelIndex s.rot x.toNat y.toNat with
  | none => .next (s.respond .okUnit)
  | some i =>
    match memWrite i (pixelBytes value) s with
    | .next t => .next (t.respond .okUnit)
    | .fault f => .fault f
    | .refused r => .refused r

/-- SET_PIXEL (R204). -/
def execSetPixel (x y : Word32) (value : Word16) (s : State) : Outcome State Fault Refusal :=
  accept (.setPixel x y value) (setPixelRule x y value) s

end Sys2Proof.Machine
end

