-- ==== Sys2Proof/Machine/Setup.lean ====
section
/-! DEFINITION. The setup operations NEW, RESET and INIT (41_display_setup.md). -/

namespace Sys2Proof.Machine

open Host (Outcome)

/-- The rule of NEW once accepted: fb all zero, rot, dc and life at their construction values, `Ok(())`, no action (R170). -/
def newRule (r : Rotation) (s : State) : Outcome State Fault Refusal :=
  .next ((s.construct r).respond .okUnit)

/-- NEW (R170). -/
def execNew (r : Rotation) (s : State) : Outcome State Fault Refusal :=
  accept (.new r) (newRule r) s

/-- RESET: the five actions of the reset pulse; it writes no block state but seq and resp (R173, R174;
log 23). -/
def execReset (s : State) : Outcome State Fault Refusal :=
  accept .reset (start .reset) s

/-- INIT: the 14 sends of R176. -/
def execInit (s : State) : Outcome State Fault Refusal :=
  accept .init (start .init) s

end Sys2Proof.Machine
end

