-- ==== Sys2Proof/Machine/Transfer.lean ====
section
/-! DEFINITION. The draw window and the transfer: SET_DRAW_AREA, FLUSH and its data stream (43_display_transfer.md). -/

namespace Sys2Proof.Machine

open Host (Outcome)

/-- The rule of SET_DRAW_AREA once accepted: the order check before any action, the sticky fault where it fails, else the
two sends (R230, R231). -/
def setDrawAreaRule (sx sy ex ey : Byte) (s : State) : Outcome State Fault Refusal :=
  if inOrder sx sy ex ey then start (.setDrawArea sx sy ex ey) s else .next s.raiseFault

/-- SET_DRAW_AREA (R230). -/
def execSetDrawArea (sx sy ex ey : Byte) (s : State) : Outcome State Fault Refusal :=
  accept (.setDrawArea sx sy ex ey) (setDrawAreaRule sx sy ex ey) s

/-- FLUSH: the full window, then DcSet(Data) and one Write of the whole framebuffer (R232, R233). -/
def execFlush (s : State) : Outcome State Fault Refusal :=
  accept .flush (start .flush) s

/-- PIXEL_DATA: DcSet(Data), then one Write of the stream; FLUSH's k = 4 and 5 (R232; log 13). -/
def execPixelData (frame : List Byte) (s : State) : Outcome State Fault Refusal :=
  accept (.pixelData frame) (start (.pixelData frame)) s

end Sys2Proof.Machine
end

