-- ==== Sys2Proof/Machine/Dispatch.lean ====
section
/-! DEFINITION. Dispatch: one arm per instruction, each one call of its meaning. -/

namespace Sys2Proof.Machine

def exec (i : Instr) (s : State) : Host.Outcome State Fault Refusal :=
  match i with
  | .displayOff => Sys2Proof.Machine.execDisplayOff s
  | .displayOn => Sys2Proof.Machine.execDisplayOn s
  | .clockDiv div osc => Sys2Proof.Machine.execClockDiv div osc s
  | .multiplex n => Sys2Proof.Machine.execMultiplex n s
  | .displayOffset n => Sys2Proof.Machine.execDisplayOffset n s
  | .startLine n => Sys2Proof.Machine.execStartLine n s
  | .remap p => Sys2Proof.Machine.execRemap p s
  | .contrastA a => Sys2Proof.Machine.execContrastA a s
  | .contrastB b => Sys2Proof.Machine.execContrastB b s
  | .contrastC c => Sys2Proof.Machine.execContrastC c s
  | .precharge a b => Sys2Proof.Machine.execPrecharge a b s
  | .vcomh code => Sys2Proof.Machine.execVcomh code s
  | .allOnOff => Sys2Proof.Machine.execAllOnOff s
  | .allOnOn => Sys2Proof.Machine.execAllOnOn s
  | .invertOff => Sys2Proof.Machine.execInvertOff s
  | .invertOn => Sys2Proof.Machine.execInvertOn s
  | .columnAddress first last => Sys2Proof.Machine.execColumnAddress first last s
  | .rowAddress first last => Sys2Proof.Machine.execRowAddress first last s
  | .pixelData frame => Sys2Proof.Machine.execPixelData frame s
  | .new r => Sys2Proof.Machine.execNew r s
  | .reset => Sys2Proof.Machine.execReset s
  | .init => Sys2Proof.Machine.execInit s
  | .clear => Sys2Proof.Machine.execClear s
  | .setPixel x y value => Sys2Proof.Machine.execSetPixel x y value s
  | .setDrawArea sx sy ex ey => Sys2Proof.Machine.execSetDrawArea sx sy ex ey s
  | .flush => Sys2Proof.Machine.execFlush s
  | .dimensions => Sys2Proof.Machine.execDimensions s
  | .setRotation r => Sys2Proof.Machine.execSetRotation r s
  | .rotation => Sys2Proof.Machine.execRotation s
  | .release => Sys2Proof.Machine.execRelease s

end Sys2Proof.Machine
end

