-- ==== Sys2Proof/Machine/Step.lean ====
section
/-! DEFINITION. One step of the block. -/

namespace Sys2Proof.Machine

open Host (Outcome)

/-- One step. While an operation is in progress the port takes nothing (30_encoding.md R104) and the operation goes on
where it is (10_state.md R34); an action without an answer leaves the state as it is (60_exceptions.md R275). When Idle,
the block takes the next raw word, or waits itself where there is none (20_memory.md R68). -/
def step (s : State) : Outcome State Fault Refusal :=
  match s.seq with
  | .busy op k => resume op k s
  | .idle =>
    match s.take with
    | none => .next s
    | some (f, t) =>
      match fetchDecode f s.life with
      | .error r => .refused r
      | .ok i => exec i t

/-- The state whose next step takes the table word `w`: a request waits at the port before all others with no call before
it, a command's bytes or a data stream are the next call of the command layer (logs 4, 11); the sequencer is Idle, so that
the word is taken. -/
def State.withFetchWord (s : State) (nbits w : Nat) : State :=
  match tableWord nbits w with
  | .request q => { s with inbox := q :: s.inbox, calls := [], seq := .idle }
  | .send bytes => { s with calls := .send bytes :: s.calls, seq := .idle }
  | .data bytes => { s with calls := .data bytes :: s.calls, seq := .idle }

end Sys2Proof.Machine
end

