-- ==== Sys2Proof/Machine/Flags.lean ====
section
/-! DEFINITION. The block has no flags (10_state.md R37); the only status a program sees is the response register. This file
holds what the ports show of the state: the response port's signals (30_encoding.md R102; log 24), the rotation and lifecycle
codes, the D/C line's electrical level, and who owns the handles. -/

namespace Sys2Proof.Machine

/-- `status`: 0 = Ok, 1 = CommunicationError, 2 = PinError; 3 is never driven (R102). -/
def Resp.status : Resp → BitVec 2
  | .okUnit => 0#2
  | .okDims _ _ => 0#2
  | .okRot _ => 0#2
  | .commErr _ => 1#2
  | .pinErr _ => 2#2

/-- `rdata`: `{w[7:0], h[7:0]}` of DIMENSIONS, `zext_16(r)` of ROTATION, otherwise 0 (R102). -/
def Resp.rdata : Resp → Word16
  | .okUnit => 0#16
  | .okDims w h => w ++ h
  | .okRot r => r.bits.setWidth 16
  | .commErr _ => 0#16
  | .pinErr _ => 0#16

/-- The error value `rerr` carries. -/
inductive ErrorValue where
  | comm (e : CommE)
  | pin (e : PinE)
deriving DecidableEq, Repr

/-- `rerr`: the opaque error value when status is 1 or 2 (R102). -/
def Resp.rerr : Resp → Option ErrorValue
  | .okUnit => none
  | .okDims _ _ => none
  | .okRot _ => none
  | .commErr e => some (.comm e)
  | .pinErr e => some (.pin e)

/-- The lifecycle code `life[1:0]` (R31). -/
def Life.bits : Life → BitVec 2
  | .absent => 0b00#2
  | .live => 0b01#2
  | .released => 0b10#2
  | .faulted => 0b11#2

/-- The electrical level of a D/C level: `dcPolarity` (00_scope.md R7; 92 D3). -/
def dcPin (c : Config) : DcLevel → PinLevel
  | .cmd => c.dcCmdPin
  | .data => match c.dcCmdPin with
    | .low => .high
    | .high => .low

/-- The level of the D/C line, where it is known (R33). -/
def State.dcLine (s : State) : Option PinLevel :=
  match s.dc with
  | .unknown => none
  | .driven l => some (dcPin s.cfg l)

/-- The block owns the transport and the D/C handle while life = Live and not while it is Absent or Released (R31, R41,
60_exceptions.md R280). DESIGN CHOICE (log 27): the spec does not say who holds them while life = Faulted; here the block
does not. No meaning reads this. -/
def State.ownsHandles (s : State) : Bool := decide (s.life = .live)

end Sys2Proof.Machine
end

