-- ==== Sys2Proof/Safety.lean ====
section
/-! DEFINITION. The terms in which claims about runs are stated: what an environment answers, what a trace may hold, and the
invariant of a state. -/

namespace Sys2Proof.Machine

open Host (Outcome)

/-- A run is claimed about only while no sticky fault was raised (60_exceptions.md R272: a faulted state is never a final
state of a run). -/
def State.unfaulted (s : State) : Bool := decide (s.life ≠ .faulted)

/-- The port is free and an instance exists: R104 then accepts every operation but NEW. -/
def State.ready (s : State) : Prop := s.seq = .idle ∧ s.life = .live

/-- The block is driven by its request port alone: no call of the command layer waits and none is in progress (R103; log
11). It says nothing of the requests that wait. -/
def State.hostOnly (s : State) : Prop := s.calls = [] ∧ ∀ op k, s.seq = .busy op k → op.isWire = false

/-- Whether an action takes an answer from the environment; a Delay always answers Ok (20_memory.md R62). -/
def Action.takesAnswer : Action → Bool
  | .dcSet _ => true
  | .write _ => true
  | .rstSet _ => true
  | .delay _ => false

/-- How many answers a list of actions takes. -/
def demand (as : List Action) : Nat := as.countP Action.takesAnswer

/-- The trace of actions that were all answered Ok. -/
def okEvents (as : List Action) : List Event := as.map (fun a => ⟨a, .ok⟩)

/-- `dc` after actions that were all answered Ok (10_state.md R33). -/
def latchAfter (as : List Action) (d : DcLatch) : DcLatch := as.foldl (fun d a => dcAfterOk a d) d

/-- Runs the meanings of a list of instructions one after the other, as long as each answers a next state. -/
def execAll : List Instr → State → Outcome State Fault Refusal
  | [], s => .next s
  | i :: is, s =>
    match exec i s with
    | .next t => execAll is t
    | .fault f => .fault f
    | .refused r => .refused r

/-- The next state of an outcome, if it has one. -/
def nextOf : Outcome State Fault Refusal → Option State
  | .next t => some t
  | .fault _ => none
  | .refused _ => none

/-- A transformation of the next state of an outcome; a fault and a refusal stay. -/
def mapNext (f : State → State) : Outcome State Fault Refusal → Outcome State Fault Refusal
  | .next t => .next (f t)
  | .fault r => .fault r
  | .refused r => .refused r

/-- The trace of command sends that were all answered Ok (40_command_layer.md R130). -/
def sentOk (commands : List (List Byte)) : List Event :=
  commands.flatMap (fun bytes => [⟨.dcSet .cmd, .ok⟩, ⟨.write bytes, .ok⟩])

/-- What a wire form does when the environment answers both its actions Ok: the D/C line is driven to `l`, the bytes are
written, and nothing else of the block changes (R130; `trace` and `replies` record the two actions and their answers). -/
def completesWith (i : Instr) (l : DcLevel) (bytes : List Byte) : Prop :=
  ∀ (s : State) (rest : List Answer), s.seq = .idle → s.replies = .ok :: .ok :: rest →
    exec i s = .next { s with
      dc := .driven l, replies := rest, trace := s.trace ++ [⟨.dcSet l, .ok⟩, ⟨.write bytes, .ok⟩] }

/-- A host operation without operands: its request is op `n` and every operand bit 0, and no other request (30_encoding.md
R103, R105). -/
def encodedPlainly (i : Instr) (n : BitVec 4) : Prop :=
  ∀ q : Request, q.op = n →
    (decode (.request q) = .ok i ↔ q.a = 0#32 ∧ q.b = 0#32 ∧ q.v = 0#16 ∧ q.r = 0#2)

/-- The number of external actions of an operation (70_reset_and_hazards.md R311; two for a send, R130). -/
def actionCount (i : Instr) : Nat :=
  match i with
  | .displayOff => 2
  | .displayOn => 2
  | .clockDiv _ _ => 2
  | .multiplex _ => 2
  | .displayOffset _ => 2
  | .startLine _ => 2
  | .remap _ => 2
  | .contrastA _ => 2
  | .contrastB _ => 2
  | .contrastC _ => 2
  | .precharge _ _ => 2
  | .vcomh _ => 2
  | .allOnOff => 2
  | .allOnOn => 2
  | .invertOff => 2
  | .invertOn => 2
  | .columnAddress _ _ => 2
  | .rowAddress _ _ => 2
  | .pixelData _ => 2
  | .new _ => 0
  | .reset => 5
  | .init => 28
  | .clear => 0
  | .setPixel _ _ _ => 0
  | .setDrawArea _ _ _ _ => 4
  | .flush => 6
  | .dimensions => 0
  | .setRotation _ => 2
  | .rotation => 0
  | .release => 0

/-! ## Traces (20_memory.md R70, 30_encoding.md R101) -/

/-- The level that an event has driven with a successful answer. -/
def Event.drove (e : Event) : Option DcLevel :=
  match e.action with
  | .dcSet l => if e.answer = .ok then some l else none
  | .write _ => none
  | .rstSet _ => none
  | .delay _ => none

/-- Bytes of a command of the closed set: an opcode of R100 and as many bytes as it takes. -/
def isCommand : List Byte → Bool
  | [] => false
  | op :: args => commandLength op == some (args.length + 1)

/-- A Write comes right after a successful DcSet of its own kind: Cmd before a command, Data before LEN data bytes (R70). -/
def Action.taggedBy (prev : Option DcLevel) : Action → Bool
  | .write bytes =>
    match prev with
    | none => false
    | some .cmd => isCommand bytes
    | some .data => bytes.length == fbLen
  | .dcSet _ => true
  | .rstSet _ => true
  | .delay _ => true

/-- Every Write of a trace is tagged, the event before the trace having driven `prev`. -/
def taggedFrom : Option DcLevel → List Event → Bool
  | _, [] => true
  | prev, e :: es => e.action.taggedBy prev && taggedFrom e.drove es

/-- R70 of a whole trace. -/
def tagged (tr : List Event) : Bool := taggedFrom none tr

/-- `dc` after an event (10_state.md R33). -/
def dcAfterEvent (d : DcLatch) (e : Event) : DcLatch :=
  match e.answer with
  | .ok => dcAfterOk e.action d
  | .err _ => dcAfterErr e.action d

/-- The D/C latch that the events of a trace leave, from Unknown. -/
def latchOf (tr : List Event) : DcLatch := tr.foldl dcAfterEvent .unknown

/-! ## The invariant -/

/-- A state in the middle of an operation: the operation is well-formed, it has an action k, its actions before k are the
newest of the trace, all answered Ok, and what it set or needed when it was accepted still holds (R34, R67, R104). -/
def State.seqOk (s : State) : Prop :=
  match s.seq with
  | .idle => True
  | .busy op k =>
    op.wellFormed = true ∧ k < (actionsOf op s).length ∧ okEvents ((actionsOf op s).take k) <:+ s.trace ∧
      (op.isWire = false → s.life = .live) ∧ (∀ r, op = .setRotation r → s.rot = r)

/-- The invariant: the framebuffer is canonical and inside 0..LEN-1 (R36), the sequencer is in an operation's action list
(R34), every Write of the trace is tagged (R70), and `dc` is Unknown or what the trace says of the line (R33). -/
def State.Inv (s : State) : Prop :=
  s.fb.wf = true ∧ s.seqOk ∧ tagged s.trace = true ∧ (s.dc = .unknown ∨ s.dc = latchOf s.trace)

end Sys2Proof.Machine
end

