-- ==== Sys2Proof/Certificates/Slice0/Obligations.lean ====
section
/-! DEFINITION. The statements for the provers. Each is listed in OBLIGATIONS.json with the rules it rests on. A statement
that gives a whole next state, `{ s with … }`, is result, frame and completion at once: every field it does not name is
unchanged. -/

open Sys2Proof Sys2Proof.Machine

/-! ## Encoding -/

/-- Words written out from R90, R94, R95, R100, R103 decode to their instructions. -/
def Obligations.DecodeReadsTheSpecWords : Prop :=
  decodeTableWord 8 0xAE = some .displayOff ∧
    decodeTableWord 16 0x08B3 = some (.clockDiv 0x8#4 0x0#4) ∧
    decodeTableWord 16 0xF1B1 = some (.precharge 0x1#4 0xF#4) ∧
    decodeTableWord 16 0x30BE = some (.vcomh 0x30#8) ∧
    decodeTableWord 24 0x5F0015 = some (.columnAddress 0#8 95#8) ∧
    decodeTableWord 8 0x3 = some .init ∧
    decodeTableWord 96 (0x5 + 0xA * 2 ^ 8 + 0x14 * 2 ^ 40 + 0xF800 * 2 ^ 72) = some (.setPixel 10#32 20#32 0xF800#16) ∧
    decodeTableWord 96 (0x6 + 0x140A * 2 ^ 8 + 0x281E * 2 ^ 40) = some (.setDrawArea 10#8 20#8 30#8 40#8)

/-- Decoding an encoded well-formed instruction gives it back. -/
def Obligations.DecodeOfEncodeIsTheInstruction : Prop :=
  ∀ i : Instr, i.wellFormed = true → decode (encode i) = .ok i

/-- A raw word that decodes is the one encoding of its instruction, which is well-formed. R105's conclusion rests on the
spec's own decision D1. -/
def Obligations.EncodeOfDecodeIsTheWord : Prop :=
  ∀ (f : Fetch) (i : Instr), decode f = .ok i → encode i = f ∧ i.wellFormed = true

/-- The Boolean commands: opcode[0] is the Boolean, the other bits of each pair are the same (R99). -/
def Obligations.BooleanCommandsSelectTheirOpcode : Prop :=
  (encode .displayOff = .send [0xAE#8] ∧ encode .displayOn = .send [0xAF#8]) ∧
    (encode .allOnOff = .send [0xA4#8] ∧ encode .allOnOn = .send [0xA5#8]) ∧
    (encode .invertOff = .send [0xA6#8] ∧ encode .invertOn = .send [0xA7#8]) ∧
    ∀ p ∈ [(Instr.displayOff, Instr.displayOn), (.allOnOff, .allOnOn), (.invertOff, .invertOn)],
      ∃ off on : Byte, encode p.1 = .send [off] ∧ encode p.2 = .send [on] ∧
        off.getLsbD 0 = false ∧ on.getLsbD 0 = true ∧ off.extractLsb' 1 7 = on.extractLsb' 1 7

/-- The command set is closed: bytes decode as a command only with one of the 18 opcodes of R100 first, and other bytes put
on the command layer are refused (that such bytes are called at all, and the refusal's name, are the model's, log 11). -/
def Obligations.CommandSetIsClosed : Prop :=
  ∀ (op : Byte) (args : List Byte),
    op ∉ [0xAE#8, 0xAF#8, 0xB3#8, 0xA8#8, 0xA2#8, 0xA1#8, 0xA0#8, 0x81#8, 0x82#8, 0x83#8, 0xB1#8, 0xBE#8, 0xA4#8, 0xA5#8,
      0xA6#8, 0xA7#8, 0x15#8, 0x75#8] →
    (∀ i, decode (.send (op :: args)) ≠ .ok i) ∧
      ∀ (s : State) (cs : List Call), s.seq = .idle → s.calls = .send (op :: args) :: cs →
        step s = .refused .notACommand

/-! ## A step -/

/-- When Idle, a step takes the oldest request that waits, or a call of the command layer where one is made (log 11), and is
the meaning of the instruction it decodes to; it is the state itself where neither waits (R68). -/
def Obligations.StepRunsTheDecodedInstruction : Prop :=
  ∀ s : State, s.seq = .idle →
    (∀ (q : Request) (rest : List Request) (i : Instr), s.calls = [] → s.inbox = q :: rest → decode (.request q) = .ok i →
      step s = exec i { s with inbox := rest }) ∧
    (∀ (bytes : List Byte) (cs : List Call) (i : Instr), s.calls = .send bytes :: cs → decode (.send bytes) = .ok i →
      step s = exec i { s with calls := cs }) ∧
    (∀ (bytes : List Byte) (cs : List Call) (i : Instr), s.calls = .data bytes :: cs → decode (.data bytes) = .ok i →
      step s = exec i { s with calls := cs }) ∧
    (s.calls = [] → s.inbox = [] → step s = .next s)

/-- The request gate of R104 with the unused-bits check after it (R105), in the order of R277. The port's encoding is the
spec's decision D1, the lifecycle's D17. -/
def Obligations.RequestGateOrder : Prop :=
  ∀ (s : State) (q : Request) (rest : List Request), s.seq = .idle → s.calls = [] → s.inbox = q :: rest →
    (s.life = .faulted → step s = .refused .afterFault) ∧
    (s.life ≠ .faulted → q.op.toNat = 0 ∨ 12 ≤ q.op.toNat → step s = .refused .reservedOp) ∧
    (s.life = .live → q.op.toNat = 1 → step s = .refused .alreadyConstructed) ∧
    (s.life = .absent ∨ s.life = .released → 2 ≤ q.op.toNat → q.op.toNat ≤ 11 → step s = .refused .noInstance) ∧
    ((s.life = .live ∧ 2 ≤ q.op.toNat ∧ q.op.toNat ≤ 11) ∨
        ((s.life = .absent ∨ s.life = .released) ∧ q.op.toNat = 1) →
      (((q.op.toNat ≠ 5 → q.v = 0#16) ∧ (q.op.toNat ≠ 1 → q.op.toNat ≠ 9 → q.r = 0#2) ∧
          (q.op.toNat ≠ 5 → q.op.toNat ≠ 6 → q.a = 0#32 ∧ q.b = 0#32) ∧
          (q.op.toNat = 6 → q.a.toNat < 2 ^ 16 ∧ q.b.toNat < 2 ^ 16)) →
        ∃ i, decode (.request q) = .ok i ∧ step s = exec i { s with inbox := rest }) ∧
      (¬((q.op.toNat ≠ 5 → q.v = 0#16) ∧ (q.op.toNat ≠ 1 → q.op.toNat ≠ 9 → q.r = 0#2) ∧
          (q.op.toNat ≠ 5 → q.op.toNat ≠ 6 → q.a = 0#32 ∧ q.b = 0#32) ∧
          (q.op.toNat = 6 → q.a.toNat < 2 ^ 16 ∧ q.b.toNat < 2 ^ 16)) →
        step s = .refused .nonZeroUnused))

/-- Power-up: Absent, D/C Unknown, Idle, no response, and the block waits (R42, R68, R300; the spec's decision D20). -/
def Obligations.PowerUpIsAbsentAndWaits : Prop :=
  State.reset.life = .absent ∧ State.reset.dc = .unknown ∧ State.reset.seq = .idle ∧ State.reset.resp = none ∧
    step State.reset = .next State.reset

/-- At Busy(op, k) the block goes on with action k: an Ok advances k by one, after the last action the operation completes
(a host operation with Ok(()); a bare send, the model's own form of a command (log 11), without a response, R130, R150), an
error ends it with its response, and without an answer the state stays as it is (R34, R274, R275; the spec's decisions D16,
D19). -/
def Obligations.SequencerRunsActionsInOrder : Prop :=
  ∀ (s : State) (op : Instr) (k : Nat) (a : Action) (as : List Action), s.seq = .busy op k →
    (actionsOf op s).drop k = a :: as →
    (∀ rest, (a.takesAnswer = true ∧ s.replies = .ok :: rest) ∨ (a.takesAnswer = false ∧ s.replies = rest) →
      (as ≠ [] → step s = step { s with
        replies := rest, dc := dcAfterOk a s.dc, trace := s.trace ++ [⟨a, .ok⟩], seq := .busy op (k + 1) }) ∧
      (as = [] → step s = .next { s with
        replies := rest, dc := dcAfterOk a s.dc, trace := s.trace ++ [⟨a, .ok⟩], seq := .idle,
        resp := if op.isWire then s.resp else some .okUnit })) ∧
    (∀ e rest, s.replies = .err e :: rest →
      (∀ bytes, a = .write bytes → step s = .next { s with
        replies := rest, trace := s.trace ++ [⟨a, .err e⟩], seq := .idle, resp := some (.commErr ⟨e⟩) }) ∧
      (∀ l, a = .dcSet l → step s = .next { s with
        replies := rest, dc := .unknown, trace := s.trace ++ [⟨a, .err e⟩], seq := .idle, resp := some (.pinErr ⟨e⟩) }) ∧
      (∀ l, a = .rstSet l → step s = .next { s with
        replies := rest, trace := s.trace ++ [⟨a, .err e⟩], seq := .idle, resp := some (.pinErr ⟨e⟩) })) ∧
    (a.takesAnswer = true → s.replies = [] → step s = .next s)

/-- While an operation is in progress the port takes nothing: what waits goes on waiting, and an instruction is held
(R104; the spec's decision D19; that `exec` itself leaves the state as it is, is log 16). -/
def Obligations.BusyBlockHoldsRequests : Prop :=
  ∀ (s : State) (op : Instr) (k : Nat), s.seq = .busy op k →
    (∀ t, step s = .next t → t.inbox = s.inbox ∧ t.calls = s.calls) ∧ (∀ i, exec i s = .next s)

/-! ## The command layer -/

/-- The send contract, of a bare send (at any life: the model's choice, log 11) and inside any operation (R130): DcSet(Cmd), then one Write of all the bytes; an
error of the DcSet is a PinError without a Write, an error of the Write a CommunicationError, and either ends the operation. -/
def Obligations.SendIsCommandLevelThenOneWrite : Prop :=
  (∀ (i : Instr) (bytes : List Byte) (s : State), encode i = .send bytes → s.seq = .idle →
    (s.replies = [] → exec i s = .next { s with seq := .busy i 0 }) ∧
    (∀ e rest, s.replies = .err e :: rest → exec i s = .next { s with
      replies := rest, dc := .unknown, trace := s.trace ++ [⟨.dcSet .cmd, .err e⟩], resp := some (.pinErr ⟨e⟩) }) ∧
    (s.replies = [.ok] → exec i s = .next { s with
      replies := [], dc := .driven .cmd, trace := s.trace ++ [⟨.dcSet .cmd, .ok⟩], seq := .busy i 1 }) ∧
    (∀ e rest, s.replies = .ok :: .err e :: rest → exec i s = .next { s with
      replies := rest, dc := .driven .cmd,
      trace := s.trace ++ [⟨.dcSet .cmd, .ok⟩, ⟨.write bytes, .err e⟩], resp := some (.commErr ⟨e⟩) }) ∧
    (∀ rest, s.replies = .ok :: .ok :: rest → exec i s = .next { s with
      replies := rest, dc := .driven .cmd, trace := s.trace ++ [⟨.dcSet .cmd, .ok⟩, ⟨.write bytes, .ok⟩] })) ∧
  (∀ (s : State) (op : Instr) (k : Nat) (bytes : List Byte) (more : List Action), s.seq = .busy op k →
    (actionsOf op s).drop k = .dcSet .cmd :: .write bytes :: more →
    (∀ e rest, s.replies = .err e :: rest → step s = .next { s with
      replies := rest, dc := .unknown, trace := s.trace ++ [⟨.dcSet .cmd, .err e⟩], seq := .idle,
      resp := some (.pinErr ⟨e⟩) }) ∧
    (∀ e rest, s.replies = .ok :: .err e :: rest → step s = .next { s with
      replies := rest, dc := .driven .cmd,
      trace := s.trace ++ [⟨.dcSet .cmd, .ok⟩, ⟨.write bytes, .err e⟩], seq := .idle, resp := some (.commErr ⟨e⟩) }) ∧
    (∀ rest, more ≠ [] → s.replies = .ok :: .ok :: rest → step s = step { s with
      replies := rest, dc := .driven .cmd,
      trace := s.trace ++ [⟨.dcSet .cmd, .ok⟩, ⟨.write bytes, .ok⟩], seq := .busy op (k + 2) }))

/-- The commands without operand, with the bytes of R100. That they run as bare sends, at any life and without a response,
is log 11. -/
def Obligations.OneByteCommandsComplete : Prop :=
  completesWith .displayOff .cmd [0xAE#8] ∧ completesWith .displayOn .cmd [0xAF#8] ∧
    completesWith .allOnOff .cmd [0xA4#8] ∧ completesWith .allOnOn .cmd [0xA5#8] ∧
    completesWith .invertOff .cmd [0xA6#8] ∧ completesWith .invertOn .cmd [0xA7#8]

/-- The plain byte operands are sent unchanged, whatever their value (R93). That the commands run as bare sends, at any life
and without a response, is log 11. -/
def Obligations.PlainOperandsAreSentUnchanged : Prop :=
  (∀ n, completesWith (.multiplex n) .cmd [0xA8#8, n]) ∧ (∀ n, completesWith (.displayOffset n) .cmd [0xA2#8, n]) ∧
    (∀ n, completesWith (.startLine n) .cmd [0xA1#8, n]) ∧
    (∀ a, completesWith (.contrastA a) .cmd [0x81#8, a]) ∧ (∀ b, completesWith (.contrastB b) .cmd [0x82#8, b]) ∧
    (∀ c, completesWith (.contrastC c) .cmd [0x83#8, c]) ∧
    (∀ s e, completesWith (.columnAddress s e) .cmd [0x15#8, s, e]) ∧
    (∀ s e, completesWith (.rowAddress s e) .cmd [0x75#8, s, e])

/-- The packed operands (R94 to R98): osc above div, b above a, and the packed byte of REMAP and the level code of VCOMH as
they are. The layouts are the spec's decisions D8, D10, D11 and D12; bare sends at any life are log 11; every byte of REMAP
and every code of VCOMH, also one outside R98, is log 12. -/
def Obligations.PackedOperandsAreSent : Prop :=
  (∀ div osc : BitVec 4, completesWith (.clockDiv div osc) .cmd [0xB3#8, osc ++ div]) ∧
    (∀ a b : BitVec 4, completesWith (.precharge a b) .cmd [0xB1#8, b ++ a]) ∧
    (∀ p, completesWith (.remap p) .cmd [0xA0#8, p]) ∧
    (∀ code, completesWith (.vcomh code) .cmd [0xBE#8, code])

/-- The data stream: DcSet(Data), then one Write of all its bytes (R232, k = 4 and 5; that the stream is an instruction of
its own is log 13, that it runs at any life and without a response log 11). -/
def Obligations.DataStreamCompletes : Prop :=
  ∀ frame, completesWith (.pixelData frame) .data frame

/-- The default parameters and the codes: the block has R7's defaults at power-up, the remap byte per rotation with its
fields (R96, R97), the five VCOMH codes (R98), Cmd low and Data high (R62), the rotation codes of R32 on the request port and
in ROTATION's rdata, and the lifecycle codes of R31. They are the spec's decisions D1 to D3 and D8 to D13, in part from general knowledge (log 10). -/
def Obligations.DefaultOperandBytes : Prop :=
  State.reset.cfg = defaultConfig ∧
    remapByte defaultConfig .deg0 = 0x60#8 ∧ remapByte defaultConfig .deg90 = 0x63#8 ∧
    remapByte defaultConfig .deg180 = 0x72#8 ∧ remapByte defaultConfig .deg270 = 0x71#8 ∧
    (∀ r, (remapByte defaultConfig r).extractLsb' 5 3 = 0b011#3 ∧ (remapByte defaultConfig r).extractLsb' 2 2 = 0#2) ∧
    defaultConfig.clockDivByte = 0x08#8 ∧ defaultConfig.preChargeByte = 0xF1#8 ∧ defaultConfig.vcomhByte = 0x30#8 ∧
    defaultConfig.flushWindowRotated = false ∧ dcPin defaultConfig .cmd = .low ∧ dcPin defaultConfig .data = .high ∧
    (∀ c : Byte, (∃ i, decode (.send [0xBE#8, c]) = .ok i) ↔ c ∈ [0x00#8, 0x10#8, 0x20#8, 0x30#8, 0x3E#8]) ∧
    (∀ p ∈ [(Rotation.deg0, 0b00#2), (.deg90, 0b01#2), (.deg180, 0b10#2), (.deg270, 0b11#2)],
      Rotation.bits p.1 = p.2 ∧ decode (.request ⟨0x1#4, 0#32, 0#32, 0#16, p.2⟩) = .ok (.new p.1) ∧
        decode (.request ⟨0x9#4, 0#32, 0#32, 0#16, p.2⟩) = .ok (.setRotation p.1) ∧
        (Resp.okRot p.1).rdata.toNat = p.2.toNat) ∧
    ∀ p ∈ [(Life.absent, 0b00#2), (.live, 0b01#2), (.released, 0b10#2), (.faulted, 0b11#2)], Life.bits p.1 = p.2

/-! ## NEW, RESET, INIT -/

/-- NEW: every byte 0x00, rot the operand, dc Unknown, life Live, Ok(()), no action; its encoding (R170); and where it is
refused (R104; the spec's decision D17). -/
def Obligations.NewConstructsTheInstance : Prop :=
  ∀ (r : Rotation) (s : State), s.seq = .idle →
    (s.life = .absent ∨ s.life = .released → ∃ fb', exec (.new r) s = .next { s with
      fb := fb', rot := r, dc := .unknown, life := .live, resp := some .okUnit } ∧ ∀ j, fb'.read j = 0x00#8) ∧
    (s.life = .live → exec (.new r) s = .refused .alreadyConstructed) ∧
    (s.life = .faulted → exec (.new r) s = .refused .afterFault) ∧
    ∀ q : Request, q.op = 0x1#4 → (decode (.request q) = .ok (.new r) ↔
      q.a = 0#32 ∧ q.b = 0#32 ∧ q.v = 0#16 ∧ q.r = r.bits)

/-- RESET: exactly five actions, in order, and Ok(()); a failed RstSet is a PinError and ends it at once; its encoding
(R173). The whole next states say that it writes nothing of the block but seq and resp. -/
def Obligations.ResetPulsesTheLine : Prop :=
  encodedPlainly .reset 0x2#4 ∧
  ∀ s : State, s.ready →
    (∀ rest, s.replies = .ok :: .ok :: .ok :: rest → exec .reset s = .next { s with
      replies := rest, resp := some .okUnit,
      trace := s.trace ++ [⟨.rstSet .high, .ok⟩, ⟨.delay 1, .ok⟩, ⟨.rstSet .low, .ok⟩, ⟨.delay 10, .ok⟩,
        ⟨.rstSet .high, .ok⟩] }) ∧
    (∀ e rest, s.replies = .err e :: rest → exec .reset s = .next { s with
      replies := rest, resp := some (.pinErr ⟨e⟩), trace := s.trace ++ [⟨.rstSet .high, .err e⟩] }) ∧
    (∀ e rest, s.replies = .ok :: .err e :: rest → exec .reset s = .next { s with
      replies := rest, resp := some (.pinErr ⟨e⟩),
      trace := s.trace ++ [⟨.rstSet .high, .ok⟩, ⟨.delay 1, .ok⟩, ⟨.rstSet .low, .err e⟩] }) ∧
    (∀ e rest, s.replies = .ok :: .ok :: .err e :: rest → exec .reset s = .next { s with
      replies := rest, resp := some (.pinErr ⟨e⟩),
      trace := s.trace ++ [⟨.rstSet .high, .ok⟩, ⟨.delay 1, .ok⟩, ⟨.rstSet .low, .ok⟩, ⟨.delay 10, .ok⟩,
        ⟨.rstSet .high, .err e⟩] })

/-- RESET writes nothing of the block but seq and resp, whatever the environment does (R174; the spec's decision D20);
`trace` and `replies` are the model's record of it. -/
def Obligations.ResetWritesOnlySeqAndResp : Prop :=
  ∀ s t : State, exec .reset s = .next t →
    t = { s with seq := t.seq, resp := t.resp, trace := t.trace, replies := t.replies }

/-- INIT: the 14 sends of R176 in order, with the parameter bytes of R7 (the spec's decisions D8 to D12), and Ok(()). -/
def Obligations.InitSendsTheFourteenCommands : Prop :=
  encodedPlainly .init 0x3#4 ∧
  ∀ (s : State) (rest : List Answer), s.ready → s.replies = List.replicate 28 .ok ++ rest →
    exec .init s = .next { s with
      replies := rest, dc := .driven .cmd, resp := some .okUnit,
      trace := s.trace ++ sentOk [[0xAE#8], [0xB3#8, s.cfg.clockDivByte], [0xA8#8, 0x3F#8], [0xA2#8, 0x00#8],
        [0xA1#8, 0x00#8], [0xA0#8, remapByte s.cfg s.rot], [0x81#8, 0x91#8], [0x82#8, 0x50#8], [0x83#8, 0x7D#8],
        [0xB1#8, s.cfg.preChargeByte], [0xBE#8, s.cfg.vcomhByte], [0xA4#8], [0xA6#8], [0xAF#8]] }

/-! ## Errors and hangs, of every operation -/

/-- An operation ends at its first failed action: the response is the action's error, the block is Idle, the later actions
are not emitted, what was written before stays, and nothing is rolled back (R274, R276, R253; decisions D14, D15). -/
def Obligations.OperationEndsAtFirstError : Prop :=
  ∀ (i : Instr) (s : State) (pre post : List Action) (a : Action) (e : Nat) (v : Resp) (rest : List Answer),
    s.ready → i.kind = .operate → actionsOf i s = pre ++ a :: post →
    s.replies = List.replicate (demand pre) .ok ++ .err e :: rest →
    (((∃ bytes, a = .write bytes) ∧ v = .commErr ⟨e⟩) ∨ (((∃ l, a = .dcSet l) ∨ ∃ l, a = .rstSet l) ∧ v = .pinErr ⟨e⟩)) →
    ∃ t, exec i s = .next t ∧ t.resp = some v ∧ t.seq = .idle ∧ t.life = .live ∧
      t.trace = s.trace ++ okEvents pre ++ [⟨a, .err e⟩] ∧ t.replies = rest ∧
      t.fb = s.fb ∧ t.inbox = s.inbox ∧ t.calls = s.calls ∧ t.cfg = s.cfg ∧
      ((∀ r, i ≠ .setRotation r) → t.rot = s.rot) ∧ (∀ r, i = .setRotation r → t.rot = r) ∧
      ((∃ l, a = .dcSet l) → t.dc = .unknown) ∧ ((∀ l, a ≠ .dcSet l) → t.dc = latchAfter pre s.dc)

/-- An action that is never answered leaves the block at Busy(op, k), waiting on it, without a response, and the state is
its own next state (R275; the spec's decision D16). -/
def Obligations.UnansweredActionHangsTheBlock : Prop :=
  ∀ (i : Instr) (s : State) (pre post : List Action) (a : Action),
    s.ready → i.kind = .operate → actionsOf i s = pre ++ a :: post → a.takesAnswer = true →
    s.replies = List.replicate (demand pre) .ok →
    ∃ t, exec i s = .next t ∧ t.seq = .busy i pre.length ∧ t.outstanding = some a ∧ t.resp = s.resp ∧
      t.trace = s.trace ++ okEvents pre ∧ t.life = .live ∧ t.fb = s.fb ∧ t.inbox = s.inbox ∧ t.calls = s.calls ∧
      step t = .next t

/-! ## CLEAR and SET_PIXEL -/

/-- CLEAR: every byte 0x00 whatever the buffer held, Ok(()), no action, no failure, rot unchanged; its encoding (R200). -/
def Obligations.ClearZeroesTheFramebuffer : Prop :=
  encodedPlainly .clear 0x4#4 ∧
  ∀ s : State, s.ready → ∃ fb', exec .clear s = .next { s with fb := fb', resp := some .okUnit } ∧
    ∀ j, fb'.read j = 0x00#8

/-- The mapper's formula with its asymmetric axis check and the final index check (R203, R205; decisions D5 and D6), by the
native constants alone; 0° and 180° share one mapping, 90° and 270° the other (R202). -/
def Obligations.PixelIndexFormula : Prop :=
  ∀ (rot : Rotation) (x y i : Nat), pixelIndex rot x y = some i ↔
    ((rot = .deg0 ∨ rot = .deg180) ∧ x < 96 ∧ i = (y * 96 + x) * 2 ∧ i + 1 ≤ 12287) ∨
    ((rot = .deg90 ∨ rot = .deg270) ∧ y < 96 ∧ i = (y * 64 + x) * 2 ∧ i + 1 ≤ 12287)

/-- At 0° and 180° SET_PIXEL writes exactly when x < 96 and y < 64, and no two such coordinates share an offset (R206). -/
def Obligations.NativeMapperIsExact : Prop :=
  ∀ rot : Rotation, rot = .deg0 ∨ rot = .deg180 →
    (∀ x y, (∃ i, pixelIndex rot x y = some i) ↔ x < 96 ∧ y < 64) ∧
    ∀ x y x' y' i, pixelIndex rot x y = some i → pixelIndex rot x' y' = some i → x = x' ∧ y = y'

/-- At 90° and 270° SET_PIXEL writes exactly when y < 96 and y × 64 + x ≤ 6,143, and what it writes is the slot of the
in-range coordinate (p mod 64, p div 64): a write with 64 ≤ x aliases (R207). -/
def Obligations.TurnedMapperAliases : Prop :=
  ∀ rot : Rotation, rot = .deg90 ∨ rot = .deg270 → ∀ x y : Nat,
    ((∃ i, pixelIndex rot x y = some i) ↔ y < 96 ∧ y * 64 + x ≤ 6143) ∧
    ∀ i, pixelIndex rot x y = some i →
      i = 2 * (y * 64 + x) ∧ pixelIndex rot ((y * 64 + x) % 64) ((y * 64 + x) / 64) = some i

/-- An offset of the mapper is even, and both bytes of its pixel are in the buffer (R66, R205). -/
def Obligations.PixelOffsetsAreEvenAndInside : Prop :=
  ∀ (rot : Rotation) (x y i : Nat), pixelIndex rot x y = some i → i % 2 = 0 ∧ i + 1 < 12288

/-- SET_PIXEL: the high byte at the mapped offset and the low byte after it, every other byte of the framebuffer and every
other field as before, Ok(()); nothing but the response where the coordinate is dropped; its encoding (R204). -/
def Obligations.SetPixelWritesBothBytesOrNeither : Prop :=
  (∀ (q : Request) (x y : Word32) (v : Word16), q.op = 0x5#4 →
    (decode (.request q) = .ok (.setPixel x y v) ↔ q.a = x ∧ q.b = y ∧ q.v = v ∧ q.r = 0#2)) ∧
  ∀ (s : State) (x y : Word32) (v : Word16), s.ready → s.fb.wf = true →
    (pixelIndex s.rot x.toNat y.toNat = none → exec (.setPixel x y v) s = .next { s with resp := some .okUnit }) ∧
    ∀ i, pixelIndex s.rot x.toNat y.toNat = some i →
      ∃ fb', exec (.setPixel x y v) s = .next { s with fb := fb', resp := some .okUnit } ∧
        fb'.read i = v.extractLsb' 8 8 ∧ fb'.read (i + 1) = v.extractLsb' 0 8 ∧
        ∀ j, j ≠ i → j ≠ i + 1 → fb'.read j = s.fb.read j

/-! ## SET_DRAW_AREA and FLUSH -/

/-- SET_DRAW_AREA with ex > sx and ey > sy: ColumnAddress(sx, ex - 1), RowAddress(sy, ey - 1), Ok(()); end - 1 does not
wrap; its encoding, sx = a[7:0], sy = a[15:8], ex = b[7:0], ey = b[15:8] and every other operand bit 0 (R230, R103; the
spec's decisions D1 and D4). -/
def Obligations.DrawAreaSendsTheWindow : Prop :=
  (∀ (q : Request) (sx sy ex ey : Byte), q.op = 0x6#4 →
    (decode (.request q) = .ok (.setDrawArea sx sy ex ey) ↔
      q.a.toNat = sy.toNat * 2 ^ 8 + sx.toNat ∧ q.b.toNat = ey.toNat * 2 ^ 8 + ex.toNat ∧ q.v = 0#16 ∧ q.r = 0#2)) ∧
  ∀ (s : State) (sx sy ex ey : Byte) (rest : List Answer), s.ready → sx.toNat < ex.toNat → sy.toNat < ey.toNat →
    s.replies = .ok :: .ok :: .ok :: .ok :: rest →
    (ex - 1#8).toNat = ex.toNat - 1 ∧ (ey - 1#8).toNat = ey.toNat - 1 ∧
    exec (.setDrawArea sx sy ex ey) s = .next { s with
      replies := rest, dc := .driven .cmd, resp := some .okUnit,
      trace := s.trace ++ sentOk [[0x15#8, sx, ex - 1#8], [0x75#8, sy, ey - 1#8]] }

/-- SET_DRAW_AREA with ex ≤ sx or ey ≤ sy: the sticky fault, before any action and without a response, and every later
request is refused (R231, R272, R104; the spec's decision D7, log 15). -/
def Obligations.ReversedDrawAreaFaults : Prop :=
  ∀ (s : State) (sx sy ex ey : Byte), s.ready → ex.toNat ≤ sx.toNat ∨ ey.toNat ≤ sy.toNat →
    exec (.setDrawArea sx sy ex ey) s = .next { s with life := .faulted } ∧
    ∀ (q : Request) (rest : List Request),
      step { s with life := .faulted, calls := [], inbox := q :: rest } = .refused .afterFault

/-- FLUSH: the full native window whatever rot holds, then DcSet(Data) and one Write of the LEN bytes of the framebuffer,
offset 0 first, and Ok(()) (R232, R233, R64); for the default of `flushWindowRotated`, the spec's decision D13. -/
def Obligations.FlushSendsTheWholeFramebuffer : Prop :=
  encodedPlainly .flush 0x7#4 ∧
  ∀ (s : State) (rest : List Answer), s.ready → s.cfg.flushWindowRotated = false →
    s.replies = List.replicate 6 .ok ++ rest →
    ∃ payload : List Byte, payload.length = 12288 ∧ (∀ j, j < 12288 → payload[j]? = some (s.fb.read j)) ∧
      exec .flush s = .next { s with
        replies := rest, dc := .driven .data, resp := some .okUnit,
        trace := s.trace ++ sentOk [[0x15#8, 0x00#8, 0x5F#8], [0x75#8, 0x00#8, 0x3F#8]] ++
          [⟨.dcSet .data, .ok⟩, ⟨.write payload, .ok⟩] }

/-- FLUSH only reads the framebuffer, and reads it whole: whatever the environment answers, fb, rot and life are unchanged;
where all actions are answered Ok, the last one wrote every byte (R234). -/
def Obligations.FlushOnlyReadsTheFramebuffer : Prop :=
  (∀ s t : State, exec .flush s = .next t → t.fb = s.fb ∧ t.rot = s.rot ∧ t.life = s.life) ∧
  ∀ (s : State) (rest : List Answer), s.ready → s.replies = List.replicate 6 .ok ++ rest →
    ∃ t payload, exec .flush s = .next t ∧ t.trace.getLast? = some ⟨.write payload, .ok⟩ ∧ payload.length = 12288 ∧
      ∀ j, j < 12288 → payload[j]? = some (s.fb.read j)

/-- The parameter's alternative: with `flushWindowRotated` set, FLUSH at 90° and 270° sends ColumnAddress(0, 63) and
RowAddress(0, 95), and at 0° and 180° the native window (R233; the spec's decision D13). -/
def Obligations.FlushWindowFollowsRotationIfSet : Prop :=
  ∀ (s : State) (rest : List Answer), s.ready → s.cfg.flushWindowRotated = true →
    s.replies = List.replicate 6 .ok ++ rest →
    ∃ t, exec .flush s = .next t ∧
      (s.rot = .deg90 ∨ s.rot = .deg270 →
        s.trace ++ sentOk [[0x15#8, 0x00#8, 0x3F#8], [0x75#8, 0x00#8, 0x5F#8]] <+: t.trace) ∧
      (s.rot = .deg0 ∨ s.rot = .deg180 →
        s.trace ++ sentOk [[0x15#8, 0x00#8, 0x5F#8], [0x75#8, 0x00#8, 0x3F#8]] <+: t.trace)

/-- FLUSH does not depend on rot, whatever the environment answers: two states that differ in rot alone flush alike (R233;
the spec's decision D13). -/
def Obligations.FlushIgnoresTheRotation : Prop :=
  ∀ (s t : State) (r : Rotation), s.cfg.flushWindowRotated = false → exec .flush s = .next t →
    exec .flush { s with rot := r } = .next { t with rot := r }

/-! ## DIMENSIONS, SET_ROTATION, ROTATION, RELEASE -/

/-- DIMENSIONS: (96, 64) at 0° and 180°, (64, 96) at 90° and 270°, with its rdata; no action, no other change; its
encoding (R250). -/
def Obligations.DimensionsReportsTheLogicalSize : Prop :=
  encodedPlainly .dimensions 0x8#4 ∧
  ∀ s : State, s.ready →
    (s.rot = .deg0 ∨ s.rot = .deg180 → exec .dimensions s = .next { s with resp := some (.okDims 96#8 64#8) }) ∧
    (s.rot = .deg90 ∨ s.rot = .deg270 → exec .dimensions s = .next { s with resp := some (.okDims 64#8 96#8) }) ∧
    (Resp.okDims 96#8 64#8).rdata = 0x6040#16 ∧ (Resp.okDims 64#8 96#8).rdata = 0x4060#16

/-- ROTATION: rot, with rdata its code zero-extended; no action, no other change; its encoding (R255). -/
def Obligations.RotationReportsTheRegister : Prop :=
  encodedPlainly .rotation 0xA#4 ∧
  (∀ s : State, s.ready → exec .rotation s = .next { s with resp := some (.okRot s.rot) }) ∧
  ∀ r : Rotation, (Resp.okRot r).rdata = r.bits.setWidth 16

/-- DIMENSIONS and ROTATION change nothing but resp; seq is back at Idle when the step is over (R251). -/
def Obligations.QueriesChangeOnlyTheResponse : Prop :=
  ∀ i ∈ [Instr.dimensions, Instr.rotation], ∀ s : State, s.ready →
    ∃ v, exec i s = .next { s with resp := some v }

/-- SET_ROTATION: rot is written first, then exactly one remap command is sent; it keeps the new rot where either action
fails or is never answered (R252, R253; the spec's decisions D9 and D14, log 19); its encoding. -/
def Obligations.SetRotationCommitsBeforeTheSend : Prop :=
  (∀ (q : Request) (r : Rotation), q.op = 0x9#4 →
    (decode (.request q) = .ok (.setRotation r) ↔ q.a = 0#32 ∧ q.b = 0#32 ∧ q.v = 0#16 ∧ q.r = r.bits)) ∧
  ∀ (s : State) (r : Rotation), s.ready →
    (∀ rest, s.replies = .ok :: .ok :: rest → exec (.setRotation r) s = .next { s with
      rot := r, replies := rest, dc := .driven .cmd, resp := some .okUnit,
      trace := s.trace ++ sentOk [[0xA0#8, remapByte s.cfg r]] }) ∧
    (∀ e rest, s.replies = .err e :: rest → exec (.setRotation r) s = .next { s with
      rot := r, replies := rest, dc := .unknown, resp := some (.pinErr ⟨e⟩),
      trace := s.trace ++ [⟨.dcSet .cmd, .err e⟩] }) ∧
    (∀ e rest, s.replies = .ok :: .err e :: rest → exec (.setRotation r) s = .next { s with
      rot := r, replies := rest, dc := .driven .cmd, resp := some (.commErr ⟨e⟩),
      trace := s.trace ++ [⟨.dcSet .cmd, .ok⟩, ⟨.write [0xA0#8, remapByte s.cfg r], .err e⟩] }) ∧
    (s.replies = [] → exec (.setRotation r) s = .next { s with rot := r, seq := .busy (.setRotation r) 0 }) ∧
    (s.replies = [.ok] → exec (.setRotation r) s = .next { s with
      rot := r, replies := [], dc := .driven .cmd, trace := s.trace ++ [⟨.dcSet .cmd, .ok⟩],
      seq := .busy (.setRotation r) 1 })

/-- RELEASE: life is Released, Ok(()), no action and no other change; after it every request but NEW is refused, and NEW is
accepted (R256, R104; the spec's decision D17). -/
def Obligations.ReleaseEndsTheInstance : Prop :=
  encodedPlainly .release 0xB#4 ∧
  ∀ s : State, s.ready → exec .release s = .next { s with life := .released, resp := some .okUnit } ∧
    (∀ i : Instr, i.kind = .operate → exec i { s with life := .released } = .refused .noInstance) ∧
    ∀ r : Rotation, ∃ t, exec (.new r) { s with life := .released } = .next t ∧ t.life = .live

/-! ## Rules of the whole machine -/

/-- Which instructions an Idle block accepts, and that every accepted one answers a next state: never a fault, never
another refusal (R104, R273, R280; the spec's decisions D1 and D17; that the wire forms pass no gate is log 11). -/
def Obligations.AcceptedInstructionsAnswerNext : Prop :=
  ∀ (i : Instr) (s : State), s.seq = .idle →
    (i.kind = .wire → ∃ t, exec i s = .next t) ∧
    (i.kind = .operate →
      (s.life = .live → ∃ t, exec i s = .next t) ∧ (s.life = .faulted → exec i s = .refused .afterFault) ∧
      (s.life = .absent ∨ s.life = .released → exec i s = .refused .noInstance)) ∧
    (i.kind = .construct →
      (s.life = .absent ∨ s.life = .released → ∃ t, exec i s = .next t) ∧
      (s.life = .faulted → exec i s = .refused .afterFault) ∧ (s.life = .live → exec i s = .refused .alreadyConstructed))

/-- Only NEW, CLEAR and SET_PIXEL write the framebuffer (R36). -/
def Obligations.OnlyThreeOperationsWriteTheFramebuffer : Prop :=
  ∀ (i : Instr) (s t : State), exec i s = .next t → (∀ r, i ≠ .new r) → i ≠ .clear → (∀ x y v, i ≠ .setPixel x y v) →
    t.fb = s.fb

/-- Only NEW and SET_ROTATION write rot, and they write their operand (R32, R38; the spec's decision D2). -/
def Obligations.OnlyNewAndSetRotationWriteRot : Prop :=
  ∀ (i : Instr) (s t : State), exec i s = .next t →
    t.rot = s.rot ∨ ∃ r, t.rot = r ∧ (i = .new r ∨ i = .setRotation r)

/-- Only NEW, RELEASE and the sticky fault write life (R31, R38; the spec's decisions D7 and D17). -/
def Obligations.OnlyNewReleaseAndTheFaultWriteLife : Prop :=
  ∀ (i : Instr) (s t : State), exec i s = .next t → t.life = s.life ∨
    (t.life = .live ∧ (∃ r, i = .new r) ∧ (s.life = .absent ∨ s.life = .released)) ∨
    (t.life = .released ∧ i = .release ∧ s.life = .live) ∨
    (t.life = .faulted ∧ s.life = .live ∧
      ∃ sx sy ex ey, i = .setDrawArea sx sy ex ey ∧ (ex.toNat ≤ sx.toNat ∨ ey.toNat ≤ sy.toNat))

/-- A step never takes back, reorders or drops an action: the trace grows at its end, each new action that takes an answer
has taken the environment's next one, and the parameters stay (R67, R71, R151). -/
def Obligations.StepsOnlyExtendTheTrace : Prop :=
  ∀ s t : State, step s = .next t → ∃ new : List Event, t.trace = s.trace ++ new ∧
    s.replies = (new.filter (fun e => e.action.takesAnswer)).map Event.answer ++ t.replies ∧
    t.inbox <:+ s.inbox ∧ t.calls <:+ s.calls ∧ t.cfg = s.cfg

/-- Which operations can report which error: the six without actions report none, RESET no CommunicationError (R271). -/
def Obligations.ErrorsComeOnlyFromActions : Prop :=
  ∀ (i : Instr) (s t : State), s.seq = .idle → exec i s = .next t →
    (((∃ r, i = .new r) ∨ i = .clear ∨ (∃ x y v, i = .setPixel x y v) ∨ i = .dimensions ∨ i = .rotation ∨ i = .release) →
      t.trace = s.trace ∧ t.seq = .idle ∧ ∃ v, t.resp = some v ∧ v.status = 0#2) ∧
    (i = .reset → ∀ e, t.resp = some (.commErr e) → s.resp = some (.commErr e))

/-- Every operation, NEW among them where the gate accepts it, emits its fixed number of actions and completes once each is
answered Ok (R311): 0, 2, 4, 5, 6 or 28. -/
def Obligations.OperationsCompleteAfterTheirActions : Prop :=
  ∀ (i : Instr) (s : State) (n : Nat), s.seq = .idle →
    (i.kind = .operate ∧ s.life = .live) ∨ (i.kind = .construct ∧ (s.life = .absent ∨ s.life = .released)) →
    (∀ sx sy ex ey, i = .setDrawArea sx sy ex ey → sx.toNat < ex.toNat ∧ sy.toNat < ey.toNat) →
    s.replies = List.replicate n .ok → actionCount i ≤ n →
    ∃ t, exec i s = .next t ∧ t.seq = .idle ∧ t.trace.length = s.trace.length + actionCount i ∧
      ∃ v, t.resp = some v ∧ v.status = 0#2

/-- No rule reads the D/C latch: two states that differ in `dc` alone step alike, `dc` apart (R33; decision D15). -/
def Obligations.DcLatchIsObservationOnly : Prop :=
  ∀ (s : State) (d : DcLatch),
    mapNext (fun t => { t with dc := .unknown }) (step { s with dc := d }) =
      mapNext (fun t => { t with dc := .unknown }) (step s)

/-- The response port: status, rdata and rerr of every response (R102, R270; the spec's decision D1). -/
def Obligations.ResponsePortSignals : Prop :=
  (∀ v : Resp, v.status ≠ 3#2) ∧ (∀ v : Resp, v.rerr = none ↔ v.status = 0#2) ∧
    (∀ e : CommE, (Resp.commErr e).status = 1#2 ∧ (Resp.commErr e).rerr = some (.comm e) ∧ (Resp.commErr e).rdata = 0#16) ∧
    (∀ e : PinE, (Resp.pinErr e).status = 2#2 ∧ (Resp.pinErr e).rerr = some (.pin e) ∧ (Resp.pinErr e).rdata = 0#16) ∧
    Resp.okUnit.status = 0#2 ∧ Resp.okUnit.rdata = 0#16

/-! ## The invariant -/

/-- Every step keeps the invariant: the framebuffer stays canonical and inside 0..LEN-1, the sequencer stays in its
operation's action list with the earlier actions on the trace, every Write comes right after a successful DcSet of its own
kind with the bytes of a command or of a whole frame, and dc is Unknown or what the trace says (R36, R34, R70, R101, R33). -/
def Obligations.EveryStepKeepsTheInvariant : Prop :=
  ∀ s t : State, s.Inv → step s = .next t → t.Inv

/-- The invariant holds at power-up. -/
def Obligations.PowerUpMeetsTheInvariant : Prop :=
  State.reset.Inv

/-- No state that meets the invariant faults: the model's two own stops are never reached (R34, R61; log 20). -/
def Obligations.NoFaultUnderTheInvariant : Prop :=
  ∀ (s : State) (r : Fault), s.Inv → step s ≠ .fault r

/-- The composites are their parts (R107, R149, R176, R252): where every action is answered Ok, INIT is its 14 commands run
one after the other by their own meanings, Contrast its three sends, SET_DRAW_AREA its two commands, FLUSH is
SET_DRAW_AREA (0,0), (96,64) and then the data stream, SET_ROTATION the remap command after rot is written; a host operation
then answers Ok(()). That the parts run by themselves is the model's: the commands log 11, the data stream log 13. -/
def Obligations.CompositesAreTheirCommands : Prop :=
  ∀ (s : State) (rest : List Answer), s.ready →
    (s.replies = List.replicate 28 .ok ++ rest →
      ∃ t, execAll (initCommands s.cfg s.rot) s = .next t ∧ exec .init s = .next { t with resp := some .okUnit }) ∧
    (∀ a b c, s.replies = List.replicate 6 .ok ++ rest →
      execAll [.contrastA a, .contrastB b, .contrastC c] s = .next { s with
        replies := rest, dc := .driven .cmd, trace := s.trace ++ sentOk [[0x81#8, a], [0x82#8, b], [0x83#8, c]] }) ∧
    (∀ sx sy ex ey : Byte, sx.toNat < ex.toNat → sy.toNat < ey.toNat → s.replies = List.replicate 4 .ok ++ rest →
      ∃ t, execAll [.columnAddress sx (ex - 1#8), .rowAddress sy (ey - 1#8)] s = .next t ∧
        exec (.setDrawArea sx sy ex ey) s = .next { t with resp := some .okUnit }) ∧
    (s.cfg.flushWindowRotated = false → s.replies = List.replicate 6 .ok ++ rest →
      ∃ t, execAll [.setDrawArea 0#8 0#8 96#8 64#8, .pixelData (s.fb.bytes 0 12288)] s = .next t ∧
        exec .flush s = .next { t with resp := some .okUnit }) ∧
    (∀ r, s.replies = List.replicate 2 .ok ++ rest →
      ∃ t, execAll [.remap (remapByte s.cfg r)] { s with rot := r } = .next t ∧
        exec (.setRotation r) s = .next { t with resp := some .okUnit })

/-! ## Commands come from operations -/

/-- No request decodes to a command or a data stream; and a block that is driven by its port alone stays so, whatever requests
are presented, and emits nothing but the actions of a host operation, in their order: of the one in progress from action k on,
or of the one that the oldest request asks for from action 0 on (R103, R101; the spec's decision D18; that State has a list of
bare calls at all, which this block never fills, is log 11). -/
def Obligations.CommandsComeOnlyFromOperations : Prop :=
  (∀ (q : Request) (i : Instr), decode (.request q) = .ok i → i.isWire = false) ∧
  ∀ s t : State, s.hostOnly → step s = .next t → t.hostOnly ∧
    ∃ new : List Event, t.trace = s.trace ++ new ∧
      (new = [] ∨ ∃ (op : Instr) (k : Nat), op.isWire = false ∧ new.map Event.action <+: (actionsOf op s).drop k ∧
        (s.seq = .busy op k ∨
          (s.seq = .idle ∧ k = 0 ∧ ∃ q rest, s.inbox = q :: rest ∧ decode (.request q) = .ok op)))

/-- At power-up the block is driven by its port alone: no call of the command layer waits (log 11). -/
def Obligations.PowerUpHasNoBareCall : Prop :=
  State.reset.hostOnly
end

