-- ==== Sys2Proof/Laws/Encoding.lean ====
section
/-! SUPPORT. The packings of operands and their inverses, and the decodings whose operands are packed or checked. -/

namespace Sys2Proof

open Machine

/-! ## Nibbles and points -/

@[simp] theorem loNibble_pack (hi lo : BitVec 4) : loNibble (packNibbles hi lo) = lo := by
  revert hi lo; decide

@[simp] theorem hiNibble_pack (hi lo : BitVec 4) : hiNibble (packNibbles hi lo) = hi := by
  revert hi lo; decide

@[simp] theorem pack_nibbles (b : Byte) : packNibbles (hiNibble b) (loNibble b) = b := by
  revert b; decide

theorem packPoint_toNat (x y : Byte) : (packPoint x y).toNat = y.toNat * 256 + x.toNat := by
  unfold packPoint
  rw [BitVec.toNat_append, BitVec.toNat_append, ← Nat.shiftLeft_add_eq_or_of_lt x.isLt y.toNat]
  simp [Nat.shiftLeft_eq]

@[simp] theorem packPoint_x (x y : Byte) : (packPoint x y).extractLsb' 0 8 = x := by
  have := x.isLt
  apply BitVec.eq_of_toNat_eq
  rw [BitVec.extractLsb'_toNat, packPoint_toNat, Nat.shiftRight_eq_div_pow]
  omega

@[simp] theorem packPoint_y (x y : Byte) : (packPoint x y).extractLsb' 8 8 = y := by
  have := x.isLt
  have := y.isLt
  apply BitVec.eq_of_toNat_eq
  rw [BitVec.extractLsb'_toNat, packPoint_toNat, Nat.shiftRight_eq_div_pow]
  omega

/-- A 32-bit operand that fits two Bytes is the point of its two Bytes. -/
theorem packPoint_extract {a : BitVec 32} (h : a.toNat < 2 ^ 16) :
    packPoint (a.extractLsb' 0 8) (a.extractLsb' 8 8) = a := by
  apply BitVec.eq_of_toNat_eq
  rw [packPoint_toNat]
  simp only [BitVec.extractLsb'_toNat, Nat.shiftRight_eq_div_pow]
  omega

/-! ## Rotation codes -/

@[simp] theorem rotationOfBits_bits (r : Rotation) : rotationOfBits r.bits = r := by cases r <;> rfl

@[simp] theorem bits_rotationOfBits (b : BitVec 2) : (rotationOfBits b).bits = b := by revert b; decide

/-! ## Unused operand bits -/

/-- The mask of the low 16 bits leaves nothing exactly where the operand fits them. -/
theorem and_not_low16 (a : BitVec 32) : a &&& ~~~0x0000FFFF#32 = 0#32 ↔ a.toNat < 2 ^ 16 := by
  constructor
  · intro h
    by_contra hc
    have hb : a.extractLsb' 16 16 = 0#16 := by
      ext i hi
      have h2 := congrArg (fun v => v.getLsbD (16 + i)) h
      have hm : (~~~0x0000FFFF#32 : BitVec 32).getLsbD (16 + i) = true := by
        have : ∀ i : Fin 16, (~~~0x0000FFFF#32 : BitVec 32).getLsbD (16 + i.val) = true := by decide
        exact this ⟨i, hi⟩
      simp only [BitVec.getLsbD_and, hm, Bool.and_true] at h2
      simpa using h2
    have h3 := congrArg BitVec.toNat hb
    have := a.isLt
    simp only [BitVec.extractLsb'_toNat, Nat.shiftRight_eq_div_pow, BitVec.toNat_ofNat] at h3
    omega
  · intro h
    ext i hi
    by_cases h16 : i < 16
    · have hm : (~~~0x0000FFFF#32 : BitVec 32)[i] = false := by
        have : ∀ j : Fin 16, (~~~0x0000FFFF#32 : BitVec 32).getLsbD j.val = false := by decide
        exact (BitVec.getLsbD_eq_getElem hi).symm.trans (this ⟨i, h16⟩)
      simp only [BitVec.getElem_and, hm, Bool.and_false, BitVec.getElem_zero]
    · have : a[i] = false := by
        rw [← BitVec.getLsbD_eq_getElem, BitVec.getLsbD]
        exact Nat.testBit_lt_two_pow (lt_of_lt_of_le h (Nat.pow_le_pow_right (by omega) (by omega)))
      simp [this]

/-- The sixteen request ops. -/
theorem op_cases (op : BitVec 4) :
    op = 0x0#4 ∨ op = 0x1#4 ∨ op = 0x2#4 ∨ op = 0x3#4 ∨ op = 0x4#4 ∨ op = 0x5#4 ∨ op = 0x6#4 ∨ op = 0x7#4 ∨
      op = 0x8#4 ∨ op = 0x9#4 ∨ op = 0xA#4 ∨ op = 0xB#4 ∨ op = 0xC#4 ∨ op = 0xD#4 ∨ op = 0xE#4 ∨ op = 0xF#4 := by
  revert op; decide

theorem and_not_zero32 (a : BitVec 32) : a &&& ~~~0#32 = a := by
  rw [BitVec.not_zero, BitVec.and_allOnes]

theorem and_not_zero16 (a : BitVec 16) : a &&& ~~~0#16 = a := by
  rw [BitVec.not_zero, BitVec.and_allOnes]

theorem and_not_zero2 (a : BitVec 2) : a &&& ~~~0#2 = a := by
  rw [BitVec.not_zero, BitVec.and_allOnes]

theorem and_not_full32 (a : BitVec 32) : a &&& ~~~0xFFFFFFFF#32 = 0#32 := by
  rw [show ~~~0xFFFFFFFF#32 = 0#32 by decide, BitVec.and_zero]

theorem and_not_full16 (a : BitVec 16) : a &&& ~~~0xFFFF#16 = 0#16 := by
  rw [show ~~~0xFFFF#16 = 0#16 by decide, BitVec.and_zero]

theorem and_not_full2 (a : BitVec 2) : a &&& ~~~0b11#2 = 0#2 := by
  rw [show ~~~0b11#2 = 0#2 by decide, BitVec.and_zero]

/-- What `unusedAreZero` asks, operation by operation (30_encoding.md R103, R105). -/
theorem unusedAreZero_iff (q : Request) : unusedAreZero q = true ↔
    (q.op.toNat ≠ 5 → q.v = 0#16) ∧ (q.op.toNat ≠ 1 → q.op.toNat ≠ 9 → q.r = 0#2) ∧
      (q.op.toNat ≠ 5 → q.op.toNat ≠ 6 → q.a = 0#32 ∧ q.b = 0#32) ∧
      (q.op.toNat = 6 → q.a.toNat < 2 ^ 16 ∧ q.b.toNat < 2 ^ 16) := by
  obtain ⟨op, a, b, v, r⟩ := q
  simp only [unusedAreZero, Bool.and_eq_true, beq_iff_eq, and_assoc]
  rcases op_cases op with rfl | rfl | rfl | rfl | rfl | rfl | rfl | rfl | rfl | rfl | rfl | rfl | rfl | rfl | rfl | rfl <;>
    simp only [usedBits, BitVec.reduceEq, if_true, if_false, and_not_zero32, and_not_zero16, and_not_zero2,
      and_not_full32, and_not_full16, and_not_full2, and_not_low16, BitVec.reduceToNat] <;>
    simp <;> tauto

/-- Bytes that decode are the command of `commandInstr`. -/
theorem decodeCommand_ok {bytes : List Byte} {i : Instr} (h : decodeCommand bytes = .ok i) :
    commandInstr bytes = some i := by
  unfold decodeCommand at h
  split at h
  · injection h with h
    rwa [← h]
  · cases h

/-- A byte outside the eighteen opcodes of R100 begins no command (R101). -/
theorem decodeCommand_unknown {op : Byte} {args : List Byte} (h : commandLength op = none) :
    decodeCommand (op :: args) = .error (.unknownOpcode op) := by
  have h' : op ∉ [0xAE#8, 0xAF#8, 0xA4#8, 0xA5#8, 0xA6#8, 0xA7#8] ∧
      op ∉ [0xB3#8, 0xA8#8, 0xA2#8, 0xA1#8, 0xA0#8, 0x81#8, 0x82#8, 0x83#8, 0xB1#8, 0xBE#8] ∧
      op ∉ [0x15#8, 0x75#8] := by
    unfold commandLength at h
    split at h
    · cases h
    · split at h
      · cases h
      · split at h
        · cases h
        · exact ⟨‹_›, ‹_›, ‹_›⟩
  simp only [List.mem_cons, List.not_mem_nil, or_false, not_or] at h'
  have hc : commandInstr (op :: args) = none := by
    rcases args with _ | ⟨p, _ | ⟨q, _ | ⟨r, t⟩⟩⟩
    · simp [commandInstr, cmd1Instr, h']
    · simp [commandInstr, cmd2Instr, h']
    · simp [commandInstr, cmd3Instr, h']
    · rfl
  simp [decodeCommand, hc, commandError, h]

/-- A request that decodes has no reserved op and only zeros in its unused bits. -/
theorem decodeRequest_ok {q : Request} {i : Instr} (h : decodeRequest q = .ok i) :
    reservedOp q.op = false ∧ unusedAreZero q = true ∧ requestInstr q = .ok i := by
  unfold decodeRequest at h
  split at h
  · cases h
  · split at h
    · exact ⟨by simpa using ‹¬reservedOp q.op = true›, ‹_›, h⟩
    · cases h

/-! ## Decodings of packed and checked operands -/

theorem decode_clockDiv (div osc : BitVec 4) : decode (encode (.clockDiv div osc)) = .ok (.clockDiv div osc) := by
  simp [encode, decode, decodeCommand, commandInstr, cmd2Instr, clockDivOperand]

theorem decode_precharge (a b : BitVec 4) : decode (encode (.precharge a b)) = .ok (.precharge a b) := by
  simp [encode, decode, decodeCommand, commandInstr, cmd2Instr, preChargeOperand]

theorem decode_vcomh {code : Byte} (h : (Instr.vcomh code).wellFormed = true) :
    decode (encode (.vcomh code)) = .ok (.vcomh code) := by
  have h' : (vcomhLevel code).isSome = true := h
  simp [encode, decode, decodeCommand, commandInstr, cmd2Instr, h']

theorem decode_pixelData {frame : List Byte} (h : (Instr.pixelData frame).wellFormed = true) :
    decode (encode (.pixelData frame)) = .ok (.pixelData frame) := by
  have h' : (frame.length == fbLen) = true := h
  simp only [encode, decode, decodeData, h', if_true]

theorem decode_new (r : Rotation) : decode (encode (.new r)) = .ok (.new r) := by cases r <;> rfl

theorem decode_setRotation (r : Rotation) : decode (encode (.setRotation r)) = .ok (.setRotation r) := by
  cases r <;> rfl

theorem decode_setPixel (x y : Word32) (v : Word16) : decode (encode (.setPixel x y v)) = .ok (.setPixel x y v) := by
  have h1 : ~~~0xFFFFFFFF#32 = 0#32 := by decide
  have h2 : ~~~0xFFFF#16 = 0#16 := by decide
  simp [encode, decode, decodeRequest, reservedOp, unusedAreZero, usedBits, requestInstr, h1, h2]

theorem decode_setDrawArea (sx sy ex ey : Byte) :
    decode (encode (.setDrawArea sx sy ex ey)) = .ok (.setDrawArea sx sy ex ey) := by
  have h (x y : Byte) : packPoint x y &&& ~~~0x0000FFFF#32 = 0#32 := by
    rw [and_not_low16, packPoint_toNat]
    have := x.isLt
    have := y.isLt
    omega
  have hm : usedBits 0x6#4 = ⟨0x6#4, 0x0000FFFF#32, 0x0000FFFF#32, 0#16, 0#2⟩ := rfl
  have hu : unusedAreZero ⟨0x6#4, packPoint sx sy, packPoint ex ey, 0#16, 0#2⟩ = true := by
    simp only [unusedAreZero, hm, h]
    rfl
  have hr : reservedOp 0x6#4 = false := rfl
  simp only [encode, decode, decodeRequest, hu, hr, requestInstr]
  simp

end Sys2Proof
end

