-- ==== Sys2Proof/Laws/Memory.lean ====
section
/-! SUPPORT. The framebuffer: every operation keeps the canonical form, a read after a write gives the value written, and a
write leaves every other byte alone. -/

namespace Sys2Proof.Machine

theorem fbLen_eq : fbLen = 12288 := rfl
theorem nativeWidth_eq : nativeWidth = 96 := rfl
theorem nativeHeight_eq : nativeHeight = 64 := rfl
theorem unlisted_eq : Memory.unlisted = 0x00#8 := rfl

theorem Memory.wfFrom_cons {lo j : Nat} {c : Byte} {m : Memory} :
    Memory.wfFrom lo ((j, c) :: m) = true ↔
      lo ≤ j ∧ j < fbLen ∧ c ≠ Memory.unlisted ∧ Memory.wfFrom (j + 1) m = true := by
  simp [Memory.wfFrom, and_assoc]

theorem Memory.wfFrom_mono {m : Memory} {lo lo' : Nat} (h : lo' ≤ lo) (hm : Memory.wfFrom lo m = true) :
    Memory.wfFrom lo' m = true := by
  cases m with
  | nil => rfl
  | cons e m =>
    obtain ⟨h1, h2⟩ := Memory.wfFrom_cons.mp hm
    exact Memory.wfFrom_cons.mpr ⟨by omega, h2⟩

theorem Memory.put_wfFrom {m : Memory} {lo i : Nat} {b : Byte} (hm : Memory.wfFrom lo m = true) (hlo : lo ≤ i)
    (hi : i < fbLen) : Memory.wfFrom lo (m.put i b) = true := by
  induction m generalizing lo with
  | nil =>
    unfold Memory.put
    split
    · rfl
    · exact Memory.wfFrom_cons.mpr ⟨hlo, hi, ‹_›, rfl⟩
  | cons e m ih =>
    obtain ⟨j, c⟩ := e
    obtain ⟨h1, h2, h3, h4⟩ := Memory.wfFrom_cons.mp hm
    unfold Memory.put
    split
    · split
      · exact hm
      · exact Memory.wfFrom_cons.mpr ⟨hlo, hi, ‹_›, Memory.wfFrom_cons.mpr ⟨by omega, h2, h3, h4⟩⟩
    · split
      · split
        · exact Memory.wfFrom_mono (by omega) h4
        · exact Memory.wfFrom_cons.mpr ⟨hlo, hi, ‹_›, by rwa [‹i = j›]⟩
      · exact Memory.wfFrom_cons.mpr ⟨h1, h2, h3, ih h4 (by omega)⟩

/-- Writing a byte that exists keeps the canonical form. -/
theorem Memory.put_wf {m : Memory} {i : Nat} {b : Byte} (hm : m.wf = true) (hi : i < fbLen) : (m.put i b).wf = true :=
  Memory.put_wfFrom hm (Nat.zero_le _) hi

theorem Memory.zero_wf : Memory.zero.wf = true := rfl

@[simp] theorem Memory.zero_read (i : Nat) : Memory.zero.read i = Memory.unlisted := rfl

/-- Below the least listed offset every byte is the unlisted one. -/
theorem Memory.read_below {m : Memory} {lo i : Nat} (hm : Memory.wfFrom lo m = true) (h : i < lo) :
    m.read i = Memory.unlisted := by
  induction m generalizing lo with
  | nil => rfl
  | cons e m ih =>
    obtain ⟨j, c⟩ := e
    obtain ⟨h1, h2, h3, h4⟩ := Memory.wfFrom_cons.mp hm
    rw [Memory.read, if_neg (by omega)]
    exact ih h4 (by omega)

theorem Memory.read_put_from {m : Memory} {lo i : Nat} {b : Byte} (hm : Memory.wfFrom lo m = true) (k : Nat) :
    (m.put i b).read k = if k = i then b else m.read k := by
  induction m generalizing lo with
  | nil =>
    unfold Memory.put
    by_cases hb : b = Memory.unlisted <;> by_cases hk : k = i <;> simp [hb, hk, Memory.read]
  | cons e m ih =>
    obtain ⟨j, c⟩ := e
    obtain ⟨h1, h2, h3, h4⟩ := Memory.wfFrom_cons.mp hm
    unfold Memory.put
    split
    · rename_i hij
      split
      · rename_i hb
        split
        · rename_i hk
          subst hk
          rw [Memory.read, if_neg (by omega), Memory.read_below h4 (by omega), hb]
        · rfl
      · rw [Memory.read]
    · split
      · rename_i hij
        subst hij
        split
        · rename_i hb
          by_cases hk : k = i
          · rw [if_pos hk, hk, Memory.read_below h4 (by omega), hb]
          · rw [if_neg hk, Memory.read, if_neg hk]
        · rw [Memory.read]
          by_cases hk : k = i
          · simp [hk]
          · simp [hk, Memory.read]
      · rename_i hij hne
        rw [Memory.read, ih h4]
        by_cases hk : k = j
        · have : k ≠ i := by omega
          simp [hk, Memory.read, Ne.symm hne]
        · simp [hk, Memory.read]

/-- A read after a write: the byte written at its own offset, the byte before at every other. -/
theorem Memory.read_put {m : Memory} (hm : m.wf = true) (i : Nat) (b : Byte) (k : Nat) :
    (m.put i b).read k = if k = i then b else m.read k :=
  Memory.read_put_from hm k

/-- `MemWrite` of bytes that exist keeps the canonical form. -/
theorem Memory.putBytes_wf {m : Memory} {addr : Nat} {bs : List Byte} (hm : m.wf = true)
    (h : addr + bs.length ≤ fbLen) : (m.putBytes addr bs).wf = true := by
  induction bs generalizing m addr with
  | nil => exact hm
  | cons b bs ih =>
    rw [List.length_cons] at h
    exact ih (Memory.put_wf hm (by omega)) (by omega)

@[simp] theorem Memory.bytes_length (m : Memory) (addr n : Nat) : (m.bytes addr n).length = n := by
  induction n generalizing addr with
  | zero => rfl
  | succ n ih => simp [Memory.bytes, ih]

/-- Byte j of `MemRead(addr, n)` is fb[addr + j]. -/
theorem Memory.bytes_getElem? (m : Memory) (addr n j : Nat) (h : j < n) :
    (m.bytes addr n)[j]? = some (m.read (addr + j)) := by
  induction n generalizing addr j with
  | zero => omega
  | succ n ih =>
    cases j with
    | zero => rfl
    | succ j =>
      have := ih (addr + 1) j (by omega)
      simpa [Memory.bytes, Nat.add_assoc, Nat.add_comm 1 j] using this

/-- Everything `memWrite` can do. -/
theorem memWrite_cases {addr : Nat} {bs : List Byte} {s : State} :
    (addr + bs.length ≤ fbLen ∧ memWrite addr bs s = .next { s with fb := s.fb.putBytes addr bs }) ∨
      (fbLen < addr + bs.length ∧ memWrite addr bs s = .fault (.outsideFramebuffer addr)) := by
  unfold memWrite
  split
  · exact .inl ⟨‹_›, rfl⟩
  · exact .inr ⟨by omega, rfl⟩

end Sys2Proof.Machine
end

