-- ==== Sys2Proof/Laws/State.lean ====
section
/-! SUPPORT. One lemma per field per update of State. -/

namespace Sys2Proof.Machine

variable (s : State)

@[simp] theorem State.respond_life (v : Resp) : (s.respond v).life = s.life := rfl
@[simp] theorem State.respond_rot (v : Resp) : (s.respond v).rot = s.rot := rfl
@[simp] theorem State.respond_dc (v : Resp) : (s.respond v).dc = s.dc := rfl
@[simp] theorem State.respond_seq (v : Resp) : (s.respond v).seq = .idle := rfl
@[simp] theorem State.respond_resp (v : Resp) : (s.respond v).resp = some v := rfl
@[simp] theorem State.respond_fb (v : Resp) : (s.respond v).fb = s.fb := rfl
@[simp] theorem State.respond_trace (v : Resp) : (s.respond v).trace = s.trace := rfl
@[simp] theorem State.respond_inbox (v : Resp) : (s.respond v).inbox = s.inbox := rfl
@[simp] theorem State.respond_calls (v : Resp) : (s.respond v).calls = s.calls := rfl
@[simp] theorem State.respond_replies (v : Resp) : (s.respond v).replies = s.replies := rfl
@[simp] theorem State.respond_cfg (v : Resp) : (s.respond v).cfg = s.cfg := rfl

@[simp] theorem State.raiseFault_life : (s.raiseFault).life = .faulted := rfl
@[simp] theorem State.raiseFault_rot : (s.raiseFault).rot = s.rot := rfl
@[simp] theorem State.raiseFault_dc : (s.raiseFault).dc = s.dc := rfl
@[simp] theorem State.raiseFault_seq : (s.raiseFault).seq = .idle := rfl
@[simp] theorem State.raiseFault_resp : (s.raiseFault).resp = s.resp := rfl
@[simp] theorem State.raiseFault_fb : (s.raiseFault).fb = s.fb := rfl
@[simp] theorem State.raiseFault_trace : (s.raiseFault).trace = s.trace := rfl
@[simp] theorem State.raiseFault_inbox : (s.raiseFault).inbox = s.inbox := rfl
@[simp] theorem State.raiseFault_calls : (s.raiseFault).calls = s.calls := rfl
@[simp] theorem State.raiseFault_replies : (s.raiseFault).replies = s.replies := rfl
@[simp] theorem State.raiseFault_cfg : (s.raiseFault).cfg = s.cfg := rfl

@[simp] theorem State.construct_life (r : Rotation) : (s.construct r).life = .live := rfl
@[simp] theorem State.construct_rot (r : Rotation) : (s.construct r).rot = r := rfl
@[simp] theorem State.construct_dc (r : Rotation) : (s.construct r).dc = .unknown := rfl
@[simp] theorem State.construct_seq (r : Rotation) : (s.construct r).seq = s.seq := rfl
@[simp] theorem State.construct_resp (r : Rotation) : (s.construct r).resp = s.resp := rfl
@[simp] theorem State.construct_fb (r : Rotation) : (s.construct r).fb = Memory.zero := rfl
@[simp] theorem State.construct_trace (r : Rotation) : (s.construct r).trace = s.trace := rfl
@[simp] theorem State.construct_inbox (r : Rotation) : (s.construct r).inbox = s.inbox := rfl
@[simp] theorem State.construct_calls (r : Rotation) : (s.construct r).calls = s.calls := rfl
@[simp] theorem State.construct_replies (r : Rotation) : (s.construct r).replies = s.replies := rfl
@[simp] theorem State.construct_cfg (r : Rotation) : (s.construct r).cfg = s.cfg := rfl

@[simp] theorem State.answeredOk_life (op : Instr) (k : Nat) (a : Action) (rest : List Answer) : (s.answeredOk op k a rest).life = s.life := rfl
@[simp] theorem State.answeredOk_rot (op : Instr) (k : Nat) (a : Action) (rest : List Answer) : (s.answeredOk op k a rest).rot = s.rot := rfl
@[simp] theorem State.answeredOk_dc (op : Instr) (k : Nat) (a : Action) (rest : List Answer) : (s.answeredOk op k a rest).dc = dcAfterOk a s.dc := rfl
@[simp] theorem State.answeredOk_seq (op : Instr) (k : Nat) (a : Action) (rest : List Answer) : (s.answeredOk op k a rest).seq = .busy op (k + 1) := rfl
@[simp] theorem State.answeredOk_resp (op : Instr) (k : Nat) (a : Action) (rest : List Answer) : (s.answeredOk op k a rest).resp = s.resp := rfl
@[simp] theorem State.answeredOk_fb (op : Instr) (k : Nat) (a : Action) (rest : List Answer) : (s.answeredOk op k a rest).fb = s.fb := rfl
@[simp] theorem State.answeredOk_trace (op : Instr) (k : Nat) (a : Action) (rest : List Answer) : (s.answeredOk op k a rest).trace = s.trace ++ [⟨a, .ok⟩] := rfl
@[simp] theorem State.answeredOk_inbox (op : Instr) (k : Nat) (a : Action) (rest : List Answer) : (s.answeredOk op k a rest).inbox = s.inbox := rfl
@[simp] theorem State.answeredOk_calls (op : Instr) (k : Nat) (a : Action) (rest : List Answer) : (s.answeredOk op k a rest).calls = s.calls := rfl
@[simp] theorem State.answeredOk_replies (op : Instr) (k : Nat) (a : Action) (rest : List Answer) : (s.answeredOk op k a rest).replies = rest := rfl
@[simp] theorem State.answeredOk_cfg (op : Instr) (k : Nat) (a : Action) (rest : List Answer) : (s.answeredOk op k a rest).cfg = s.cfg := rfl

@[simp] theorem State.answeredErr_life (a : Action) (e : Nat) (v : Resp) (rest : List Answer) : (s.answeredErr a e v rest).life = s.life := rfl
@[simp] theorem State.answeredErr_rot (a : Action) (e : Nat) (v : Resp) (rest : List Answer) : (s.answeredErr a e v rest).rot = s.rot := rfl
@[simp] theorem State.answeredErr_dc (a : Action) (e : Nat) (v : Resp) (rest : List Answer) : (s.answeredErr a e v rest).dc = dcAfterErr a s.dc := rfl
@[simp] theorem State.answeredErr_seq (a : Action) (e : Nat) (v : Resp) (rest : List Answer) : (s.answeredErr a e v rest).seq = .idle := rfl
@[simp] theorem State.answeredErr_resp (a : Action) (e : Nat) (v : Resp) (rest : List Answer) : (s.answeredErr a e v rest).resp = some v := rfl
@[simp] theorem State.answeredErr_fb (a : Action) (e : Nat) (v : Resp) (rest : List Answer) : (s.answeredErr a e v rest).fb = s.fb := rfl
@[simp] theorem State.answeredErr_trace (a : Action) (e : Nat) (v : Resp) (rest : List Answer) : (s.answeredErr a e v rest).trace = s.trace ++ [⟨a, .err e⟩] := rfl
@[simp] theorem State.answeredErr_inbox (a : Action) (e : Nat) (v : Resp) (rest : List Answer) : (s.answeredErr a e v rest).inbox = s.inbox := rfl
@[simp] theorem State.answeredErr_calls (a : Action) (e : Nat) (v : Resp) (rest : List Answer) : (s.answeredErr a e v rest).calls = s.calls := rfl
@[simp] theorem State.answeredErr_replies (a : Action) (e : Nat) (v : Resp) (rest : List Answer) : (s.answeredErr a e v rest).replies = rest := rfl
@[simp] theorem State.answeredErr_cfg (a : Action) (e : Nat) (v : Resp) (rest : List Answer) : (s.answeredErr a e v rest).cfg = s.cfg := rfl

@[simp] theorem State.waiting_life (op : Instr) (k : Nat) : (s.waiting op k).life = s.life := rfl
@[simp] theorem State.waiting_rot (op : Instr) (k : Nat) : (s.waiting op k).rot = s.rot := rfl
@[simp] theorem State.waiting_dc (op : Instr) (k : Nat) : (s.waiting op k).dc = s.dc := rfl
@[simp] theorem State.waiting_seq (op : Instr) (k : Nat) : (s.waiting op k).seq = .busy op k := rfl
@[simp] theorem State.waiting_resp (op : Instr) (k : Nat) : (s.waiting op k).resp = s.resp := rfl
@[simp] theorem State.waiting_fb (op : Instr) (k : Nat) : (s.waiting op k).fb = s.fb := rfl
@[simp] theorem State.waiting_trace (op : Instr) (k : Nat) : (s.waiting op k).trace = s.trace := rfl
@[simp] theorem State.waiting_inbox (op : Instr) (k : Nat) : (s.waiting op k).inbox = s.inbox := rfl
@[simp] theorem State.waiting_calls (op : Instr) (k : Nat) : (s.waiting op k).calls = s.calls := rfl
@[simp] theorem State.waiting_replies (op : Instr) (k : Nat) : (s.waiting op k).replies = s.replies := rfl
@[simp] theorem State.waiting_cfg (op : Instr) (k : Nat) : (s.waiting op k).cfg = s.cfg := rfl

/-! `complete` is `respond` of a host operation, and only returns to Idle for a wire form. -/

@[simp] theorem State.complete_life (op : Instr) : (s.complete op).life = s.life := by
  unfold State.complete; split <;> rfl
@[simp] theorem State.complete_rot (op : Instr) : (s.complete op).rot = s.rot := by
  unfold State.complete; split <;> rfl
@[simp] theorem State.complete_dc (op : Instr) : (s.complete op).dc = s.dc := by
  unfold State.complete; split <;> rfl
@[simp] theorem State.complete_seq (op : Instr) : (s.complete op).seq = .idle := by
  unfold State.complete; split <;> rfl
@[simp] theorem State.complete_resp (op : Instr) :
    (s.complete op).resp = if op.isWire then s.resp else some .okUnit := by unfold State.complete; split <;> rfl
@[simp] theorem State.complete_fb (op : Instr) : (s.complete op).fb = s.fb := by
  unfold State.complete; split <;> rfl
@[simp] theorem State.complete_trace (op : Instr) : (s.complete op).trace = s.trace := by
  unfold State.complete; split <;> rfl
@[simp] theorem State.complete_inbox (op : Instr) : (s.complete op).inbox = s.inbox := by
  unfold State.complete; split <;> rfl
@[simp] theorem State.complete_calls (op : Instr) : (s.complete op).calls = s.calls := by
  unfold State.complete; split <;> rfl
@[simp] theorem State.complete_replies (op : Instr) : (s.complete op).replies = s.replies := by
  unfold State.complete; split <;> rfl
@[simp] theorem State.complete_cfg (op : Instr) : (s.complete op).cfg = s.cfg := by
  unfold State.complete; split <;> rfl

end Sys2Proof.Machine
end

