-- ==== Sys2Proof/Laws/Ops.lean ====
section
/-! SUPPORT. What the shared operations can do, said once: accepting a request, and running a list of actions. -/

namespace Sys2Proof.Machine

open Host (Outcome)

/-! ## The gate -/

/-- Everything `accept` can do. -/
theorem accept_cases {i : Instr} {rule : State → Outcome State Fault Refusal} {s : State} :
    (∃ op k, s.seq = .busy op k ∧ accept i rule s = .next s) ∨
      (s.seq = .idle ∧ ∃ r, instrGate i s.life = some r ∧ accept i rule s = .refused r) ∨
      (s.seq = .idle ∧ instrGate i s.life = none ∧ accept i rule s = rule s) := by
  unfold accept
  cases hs : s.seq with
  | busy op k => exact .inl ⟨op, k, rfl, rfl⟩
  | idle =>
    cases hg : instrGate i s.life with
    | some r => exact .inr (.inl ⟨rfl, r, rfl, rfl⟩)
    | none => exact .inr (.inr ⟨rfl, rfl, rfl⟩)

/-- An accepted instruction runs its rule. -/
theorem accept_of_idle {i : Instr} {rule : State → Outcome State Fault Refusal} {s : State} (hs : s.seq = .idle)
    (hg : instrGate i s.life = none) : accept i rule s = rule s := by
  simp [accept, hs, hg]

@[simp] theorem lifeGate_live_use : lifeGate false .live = none := rfl
@[simp] theorem lifeGate_absent_new : lifeGate true .absent = none := rfl
@[simp] theorem lifeGate_released_new : lifeGate true .released = none := rfl

/-! ## The shape of every meaning -/

/-- Every meaning is the gate in front of a rule. -/
theorem exec_eq_accept (i : Instr) : ∃ rule, ∀ s, exec i s = accept i rule s := by
  cases i with
  | new r => exact ⟨newRule r, fun _ => rfl⟩
  | clear => exact ⟨clearRule, fun _ => rfl⟩
  | setPixel x y v => exact ⟨setPixelRule x y v, fun _ => rfl⟩
  | setDrawArea sx sy ex ey => exact ⟨setDrawAreaRule sx sy ex ey, fun _ => rfl⟩
  | dimensions => exact ⟨dimensionsRule, fun _ => rfl⟩
  | setRotation r => exact ⟨setRotationRule r, fun _ => rfl⟩
  | rotation => exact ⟨rotationRule, fun _ => rfl⟩
  | release => exact ⟨releaseRule, fun _ => rfl⟩
  | _ => exact ⟨start _, fun _ => rfl⟩

/-- A wire form's meaning is the gate in front of its two actions. -/
theorem exec_wire {i : Instr} (h : i.kind = .wire) (s : State) : exec i s = accept i (start i) s := by
  cases i <;> first | rfl | cases h

/-- A wire form passes no gate. -/
theorem instrGate_wire {i : Instr} (h : i.kind = .wire) (l : Life) : instrGate i l = none := by
  simp [instrGate, h]

/-- Every operation's gate is open while an instance lives (R104). -/
theorem instrGate_live {i : Instr} (h : i.kind = .operate) : instrGate i .live = none := by
  simp [instrGate, h]

/-! ## The environment's next answer -/

/-- An Ok is the next answer, or the action is a Delay. -/
theorem nextReply_ok_cases {a : Action} {rs rest : List Answer} (h : nextReply a rs = .ok rest) :
    (a.takesAnswer = true ∧ rs = .ok :: rest) ∨ (a.takesAnswer = false ∧ rs = rest) := by
  cases a <;> rcases rs with _ | ⟨_ | e, rs⟩ <;> simp_all [nextReply, Action.takesAnswer]

/-- An error is the next answer to an action that is no Delay. -/
theorem nextReply_err_cases {a : Action} {rs rest : List Answer} {e : Nat} {v : Resp}
    (h : nextReply a rs = .err e v rest) :
    a.takesAnswer = true ∧ rs = .err e :: rest ∧ (v = .commErr ⟨e⟩ ∨ v = .pinErr ⟨e⟩) := by
  cases a <;> rcases rs with _ | ⟨_ | e, rs⟩ <;> simp [nextReply, Action.takesAnswer] at h ⊢ <;>
    obtain ⟨rfl, rfl, rfl⟩ := h <;> simp

/-- Silence is an action that takes an answer where none is left. -/
theorem nextReply_silent_cases {a : Action} {rs : List Answer} (h : nextReply a rs = .silent) :
    a.takesAnswer = true ∧ rs = [] := by
  cases a <;> rcases rs with _ | ⟨_ | e, rs⟩ <;> simp_all [nextReply, Action.takesAnswer]

@[simp] theorem nextReply_ok {a : Action} (h : a.takesAnswer = true) (rs : List Answer) :
    nextReply a (.ok :: rs) = .ok rs := by
  cases a <;> simp_all [nextReply, Action.takesAnswer]

@[simp] theorem nextReply_delay (ms : Nat) (rs : List Answer) : nextReply (.delay ms) rs = .ok rs := by
  cases rs <;> rfl

@[simp] theorem nextReply_nil {a : Action} (h : a.takesAnswer = true) : nextReply a [] = .silent := by
  cases a <;> simp_all [nextReply, Action.takesAnswer]

/-! ## Running actions -/

@[simp] theorem okEvents_nil : okEvents [] = [] := rfl
@[simp] theorem okEvents_cons (a : Action) (as : List Action) : okEvents (a :: as) = ⟨a, .ok⟩ :: okEvents as := rfl
@[simp] theorem okEvents_append (as bs : List Action) : okEvents (as ++ bs) = okEvents as ++ okEvents bs :=
  List.map_append

@[simp] theorem latchAfter_nil (d : DcLatch) : latchAfter [] d = d := rfl
@[simp] theorem latchAfter_cons (a : Action) (as : List Action) (d : DcLatch) :
    latchAfter (a :: as) d = latchAfter as (dcAfterOk a d) := rfl

@[simp] theorem demand_nil : demand [] = 0 := rfl
theorem demand_cons (a : Action) (as : List Action) :
    demand (a :: as) = demand as + if a.takesAnswer then 1 else 0 := by
  simp [demand, List.countP_cons]

/-- The state after the actions `as`, from number k on, were all answered Ok, `rest` being the answers left. -/
def State.ran (op : Instr) (k : Nat) (as : List Action) (rest : List Answer) (s : State) : State :=
  { s with replies := rest, dc := latchAfter as s.dc, trace := s.trace ++ okEvents as, seq := .busy op (k + as.length) }

/-- Running actions does not depend on what `seq` held. -/
theorem runActions_seq (op : Instr) (k : Nat) (as : List Action) (s : State) (q : Seq) :
    runActions op k as { s with seq := q } = runActions op k as s := by
  cases as with
  | nil => unfold runActions State.complete; split <;> rfl
  | cons a as =>
    rw [runActions, runActions]
    cases nextReply a s.replies <;> rfl

/-- Actions that meet enough Ok answers are passed over. -/
theorem runActions_append {op : Instr} {pre post : List Action} {rest : List Answer} {k : Nat} {s : State}
    (h : s.replies = List.replicate (demand pre) .ok ++ rest) :
    runActions op k (pre ++ post) s = runActions op (k + pre.length) post (s.ran op k pre rest) := by
  induction pre generalizing k s with
  | nil =>
    have hs : s.ran op k [] rest = { s with seq := .busy op k } := by
      rw [demand_nil] at h
      simp [State.ran, ← show s.replies = rest by simpa using h]
    simpa [hs] using (runActions_seq op k post s _).symm
  | cons a pre ih =>
    rw [List.cons_append, runActions]
    have hn : nextReply a s.replies = .ok (List.replicate (demand pre) .ok ++ rest) := by
      rw [h, demand_cons]
      cases ha : a.takesAnswer with
      | true => simp [List.replicate_succ, ha]
      | false => cases a <;> simp_all [Action.takesAnswer]
    rw [hn]
    refine (ih rfl).trans ?_
    simp [State.ran, State.answeredOk, Nat.add_assoc, Nat.add_comm 1]

/-- Actions that all meet an Ok answer complete the operation. -/
theorem runActions_ok {op : Instr} {as : List Action} {rest : List Answer} {k : Nat} {s : State}
    (h : s.replies = List.replicate (demand as) .ok ++ rest) :
    runActions op k as s = (s.ran op k as rest).complete op := by
  have := runActions_append (op := op) (post := []) (k := k) h
  simpa [runActions] using this

/-- Everything `runActions` can do: all answered Ok, or an error at some action, or no answer to some action. -/
theorem runActions_cases (op : Instr) (k : Nat) (as : List Action) (s : State) :
    (∃ rest, s.replies = List.replicate (demand as) .ok ++ rest ∧
        runActions op k as s = (s.ran op k as rest).complete op) ∨
      (∃ pre a post e v rest, as = pre ++ a :: post ∧ a.takesAnswer = true ∧
        s.replies = List.replicate (demand pre) .ok ++ .err e :: rest ∧ nextReply a (.err e :: rest) = .err e v rest ∧
        runActions op k as s = (s.ran op k pre (.err e :: rest)).answeredErr a e v rest) ∨
      (∃ pre a post, as = pre ++ a :: post ∧ a.takesAnswer = true ∧
        s.replies = List.replicate (demand pre) .ok ∧
        runActions op k as s = s.ran op k pre []) := by
  induction as generalizing k s with
  | nil =>
    refine .inl ⟨s.replies, by simp, ?_⟩
    simpa [runActions] using (runActions_ok (op := op) (as := []) (k := k) (s := s) (rest := s.replies) (by simp))
  | cons a as ih =>
    cases hn : nextReply a s.replies with
    | ok rest =>
      have hr : runActions op k (a :: as) s = runActions op (k + 1) as (s.answeredOk op k a rest) := by
        rw [runActions, hn]
      have hran : ∀ (bs : List Action) (t : List Answer),
          (s.answeredOk op k a rest).ran op (k + 1) bs t = s.ran op k (a :: bs) t := by
        intro bs t
        simp [State.ran, State.answeredOk, Nat.add_assoc, Nat.add_comm 1]
      have hrep : ∀ n t, rest = List.replicate n .ok ++ t →
          s.replies = List.replicate (n + if a.takesAnswer then 1 else 0) .ok ++ t := by
        intro n t ht
        rcases nextReply_ok_cases hn with ⟨ha, hs⟩ | ⟨ha, hs⟩
        · simp [hs, ha, ht, List.replicate_succ]
        · simp [hs, ha, ht]
      rcases ih (k + 1) (s.answeredOk op k a rest) with ⟨t, h1, h2⟩ | ⟨p, b, q, e, v, t, h1, h2, h3, h4, h5⟩ |
        ⟨p, b, q, h1, h2, h3, h4⟩
      · exact .inl ⟨t, by simpa [demand_cons] using hrep _ t h1, by rw [hr, h2, hran]⟩
      · exact .inr (.inl ⟨a :: p, b, q, e, v, t, by simp [h1], h2, by simpa [demand_cons] using hrep _ _ h3, h4,
          by rw [hr, h5, hran]⟩)
      · refine .inr (.inr ⟨a :: p, b, q, by simp [h1], h2, ?_, by rw [hr, h4, hran]⟩)
        simpa [demand_cons] using hrep _ [] (by simpa using h3)
    | err e v rest =>
      obtain ⟨ha, hs, _⟩ := nextReply_err_cases hn
      refine .inr (.inl ⟨[], a, as, e, v, rest, rfl, ha, by simp [hs], by rw [← hs]; exact hn, ?_⟩)
      rw [runActions, hn]
      simp [State.ran, State.answeredErr]
    | silent =>
      obtain ⟨ha, hs⟩ := nextReply_silent_cases hn
      refine .inr (.inr ⟨[], a, as, rfl, ha, by simp [hs], ?_⟩)
      rw [runActions, hn]
      simp [State.ran, State.waiting, hs]

/-- Running actions writes none of life, rot, fb, inbox, calls and the parameters. -/
theorem runActions_frame (op : Instr) (k : Nat) (as : List Action) (s : State) :
    (runActions op k as s).life = s.life ∧ (runActions op k as s).rot = s.rot ∧ (runActions op k as s).fb = s.fb ∧
      (runActions op k as s).inbox = s.inbox ∧ (runActions op k as s).calls = s.calls ∧
      (runActions op k as s).cfg = s.cfg := by
  rcases runActions_cases op k as s with ⟨_, -, h⟩ | ⟨_, _, _, _, _, _, -, -, -, -, h⟩ | ⟨_, _, _, -, -, -, h⟩ <;>
    simp [h, State.ran]

/-- The action list of an operation depends on nothing but rot, fb and the parameters. -/
theorem actionsOf_congr (i : Instr) {s t : State} (h1 : s.rot = t.rot) (h2 : s.fb = t.fb) (h3 : s.cfg = t.cfg) :
    actionsOf i s = actionsOf i t := by
  cases i <;> simp only [actionsOf, h1, h2, h3]

/-- Everything `take` can do: the oldest call, the oldest request where there is no call, or nothing. -/
theorem take_cases (s : State) :
    (∃ c cs, s.calls = c :: cs ∧ s.take = some (c.word, { s with calls := cs })) ∨
      (∃ q rest, s.calls = [] ∧ s.inbox = q :: rest ∧ s.take = some (.request q, { s with inbox := rest })) ∨
      (s.calls = [] ∧ s.inbox = [] ∧ s.take = none) := by
  unfold State.take
  cases s.calls with
  | cons c cs => exact .inl ⟨c, cs, rfl, rfl⟩
  | nil =>
    cases s.inbox with
    | cons q rest => exact .inr (.inl ⟨q, rest, rfl, rfl, rfl⟩)
    | nil => exact .inr (.inr ⟨rfl, rfl, rfl⟩)

/-- A call is taken before any request. -/
theorem take_call {s : State} {c : Call} {cs : List Call} (h : s.calls = c :: cs) :
    s.take = some (c.word, { s with calls := cs }) := by
  simp [State.take, h]

/-- Where no call is made, the oldest request is taken. -/
theorem take_request {s : State} {q : Request} {rest : List Request} (h : s.calls = []) (hi : s.inbox = q :: rest) :
    s.take = some (.request q, { s with inbox := rest }) := by
  simp [State.take, h, hi]

/-- Where neither waits, nothing is taken. -/
theorem take_nothing {s : State} (h : s.calls = []) (hi : s.inbox = []) : s.take = none := by
  simp [State.take, h, hi]

/-- Taking a word changes the two lists alone, and leaves a tail of each. -/
theorem take_frame {s t : State} {f : Fetch} (h : s.take = some (f, t)) :
    ∃ rest cs, t = { s with inbox := rest, calls := cs } ∧ rest <:+ s.inbox ∧ cs <:+ s.calls := by
  rcases take_cases s with ⟨c, cs, h1, h2⟩ | ⟨q, rest, h1, h2, h3⟩ | ⟨-, -, h3⟩
  · rw [h2] at h
    cases h
    exact ⟨s.inbox, cs, rfl, List.suffix_refl _, h1 ▸ List.suffix_cons c cs⟩
  · rw [h3] at h
    cases h
    exact ⟨rest, s.calls, rfl, h2 ▸ List.suffix_cons q rest, List.suffix_refl _⟩
  · rw [h3] at h
    cases h

/-- At Busy(op, k) a step runs the actions from number k on. -/
theorem step_busy {s : State} {op : Instr} {k : Nat} {a : Action} {as : List Action} (hs : s.seq = .busy op k)
    (h : (actionsOf op s).drop k = a :: as) : step s = .next (runActions op k (a :: as) s) := by
  simp only [step, hs, resume]
  rw [h]

end Sys2Proof.Machine
end

