-- ==== Sys2Proof/Laws/PerInstr.lean ====
section
/-! SUPPORT. Per instruction: decoding an encoded well-formed instruction gives it back (family RoundTrip). -/

namespace Sys2Proof.Laws.RoundTrip

/-- The instruction survives its encoding. -/
def Statement (i : Instr) : Prop := i.wellFormed = true → decode (encode i) = .ok i

theorem displayOff : Statement .displayOff := fun _ => rfl
theorem displayOn : Statement .displayOn := fun _ => rfl
theorem clockDiv (div : BitVec 4) (osc : BitVec 4) : Statement (.clockDiv div osc) := fun _ => decode_clockDiv div osc
theorem multiplex (n : Byte) : Statement (.multiplex n) := fun _ => rfl
theorem displayOffset (n : Byte) : Statement (.displayOffset n) := fun _ => rfl
theorem startLine (n : Byte) : Statement (.startLine n) := fun _ => rfl
theorem remap (p : Byte) : Statement (.remap p) := fun _ => rfl
theorem contrastA (a : Byte) : Statement (.contrastA a) := fun _ => rfl
theorem contrastB (b : Byte) : Statement (.contrastB b) := fun _ => rfl
theorem contrastC (c : Byte) : Statement (.contrastC c) := fun _ => rfl
theorem precharge (a : BitVec 4) (b : BitVec 4) : Statement (.precharge a b) := fun _ => decode_precharge a b
theorem vcomh (code : Byte) : Statement (.vcomh code) := fun h => decode_vcomh h
theorem allOnOff : Statement .allOnOff := fun _ => rfl
theorem allOnOn : Statement .allOnOn := fun _ => rfl
theorem invertOff : Statement .invertOff := fun _ => rfl
theorem invertOn : Statement .invertOn := fun _ => rfl
theorem columnAddress (first : Byte) (last : Byte) : Statement (.columnAddress first last) := fun _ => rfl
theorem rowAddress (first : Byte) (last : Byte) : Statement (.rowAddress first last) := fun _ => rfl
theorem pixelData (frame : List Byte) : Statement (.pixelData frame) := fun h => decode_pixelData h
theorem new (r : Rotation) : Statement (.new r) := fun _ => decode_new r
theorem reset : Statement .reset := fun _ => rfl
theorem init : Statement .init := fun _ => rfl
theorem clear : Statement .clear := fun _ => rfl
theorem setPixel (x : Word32) (y : Word32) (value : Word16) : Statement (.setPixel x y value) := fun _ => decode_setPixel x y value
theorem setDrawArea (sx : Byte) (sy : Byte) (ex : Byte) (ey : Byte) : Statement (.setDrawArea sx sy ex ey) := fun _ => decode_setDrawArea sx sy ex ey
theorem flush : Statement .flush := fun _ => rfl
theorem dimensions : Statement .dimensions := fun _ => rfl
theorem setRotation (r : Rotation) : Statement (.setRotation r) := fun _ => decode_setRotation r
theorem rotation : Statement .rotation := fun _ => rfl
theorem release : Statement .release := fun _ => rfl

end Sys2Proof.Laws.RoundTrip
end

