-- ==== Sys2Proof/Laws/Step.lean ====
section
/-! SUPPORT. What a meaning and a step can do, said once. -/

namespace Sys2Proof.Machine

open Host (Outcome)

/-- An offset of the mapper is even, and both its bytes are in the framebuffer. -/
theorem pixelIndex_bound {rot : Rotation} {x y i : Nat} (h : pixelIndex rot x y = some i) :
    i % 2 = 0 ∧ i + 1 < fbLen := by
  unfold pixelIndex at h
  split at h
  · cases h
  · rename_i j hj
    split at h
    · cases h
    · cases h
      refine ⟨?_, by omega⟩
      unfold axisIndex at hj
      split at hj <;> split at hj <;> cases hj <;> omega

/-- A pixel's two bytes at an offset of the mapper are written. -/
theorem memWrite_pixel {rot : Rotation} {x y i : Nat} (h : pixelIndex rot x y = some i) (v : Word16) (s : State) :
    memWrite i (pixelBytes v) s = .next { s with fb := s.fb.putBytes i (pixelBytes v) } := by
  have hi := (pixelIndex_bound h).2
  have : i + (pixelBytes v).length ≤ fbLen := by simp only [pixelBytes, List.length_cons, List.length_nil]; omega
  simp [memWrite, this]

/-- What the rule of an accepted instruction leaves. -/
inductive Ruled (i : Instr) (s : State) : State → Prop
  | new (r : Rotation) (hi : i = .new r) : Ruled i s ((s.construct r).respond .okUnit)
  | clear (hi : i = .clear) : Ruled i s ({ s with fb := Memory.zero }.respond .okUnit)
  | dropped (x y : Word32) (v : Word16) (hi : i = .setPixel x y v)
      (hx : pixelIndex s.rot x.toNat y.toNat = none) : Ruled i s (s.respond .okUnit)
  | written (x y : Word32) (v : Word16) (j : Nat) (hi : i = .setPixel x y v)
      (hx : pixelIndex s.rot x.toNat y.toNat = some j) :
      Ruled i s ({ s with fb := s.fb.putBytes j (pixelBytes v) }.respond .okUnit)
  | reversed (sx sy ex ey : Byte) (hi : i = .setDrawArea sx sy ex ey) (ho : inOrder sx sy ex ey = false) :
      Ruled i s s.raiseFault
  | dimensions (hi : i = .dimensions) :
      Ruled i s (s.respond (.okDims (logicalDims s.rot).1 (logicalDims s.rot).2))
  | rotation (hi : i = .rotation) : Ruled i s (s.respond (.okRot s.rot))
  | release (hi : i = .release) : Ruled i s ({ s with life := .released }.respond .okUnit)
  | setRotation (r : Rotation) (hi : i = .setRotation r) :
      Ruled i s (runActions i 0 (actionsOf i s) { s with rot := r })
  | run (hk : i.kind ≠ .construct) (hr : ∀ r, i ≠ .setRotation r) (ha : actionsOf i s ≠ []) :
      Ruled i s (runActions i 0 (actionsOf i s) s)

/-- An accepted instruction answers a next state, as its rule leaves it. -/
theorem exec_ruled (i : Instr) {s : State} (hs : s.seq = .idle) (hg : instrGate i s.life = none) :
    ∃ t, exec i s = .next t ∧ Ruled i s t := by
  have go : ∀ rule, exec i s = accept i rule s → exec i s = rule s := fun rule h => by rw [h, accept_of_idle hs hg]
  cases i with
  | new r => exact ⟨_, go (newRule r) rfl, .new r rfl⟩
  | clear => exact ⟨_, go clearRule rfl, .clear rfl⟩
  | setPixel x y v =>
    cases h : pixelIndex s.rot x.toNat y.toNat with
    | none => exact ⟨_, (go (setPixelRule x y v) rfl).trans (by simp [setPixelRule, h]), .dropped x y v rfl h⟩
    | some j =>
      exact ⟨_, (go (setPixelRule x y v) rfl).trans (by simp [setPixelRule, h, memWrite_pixel h]),
        .written x y v j rfl h⟩
  | setDrawArea sx sy ex ey =>
    cases h : inOrder sx sy ex ey with
    | true =>
      exact ⟨_, (go (setDrawAreaRule sx sy ex ey) rfl).trans (by simp [setDrawAreaRule, h, start]),
        .run (by simp [Instr.kind]) (by simp) (by simp [actionsOf, h, drawAreaCommands, wireActions, encode])⟩
    | false =>
      exact ⟨_, (go (setDrawAreaRule sx sy ex ey) rfl).trans (by simp [setDrawAreaRule, h]),
        .reversed sx sy ex ey rfl h⟩
  | dimensions => exact ⟨_, go dimensionsRule rfl, .dimensions rfl⟩
  | rotation => exact ⟨_, go rotationRule rfl, .rotation rfl⟩
  | release => exact ⟨_, go releaseRule rfl, .release rfl⟩
  | setRotation r => exact ⟨_, go (setRotationRule r) rfl, .setRotation r rfl⟩
  | reset =>
    exact ⟨_, go (start .reset) rfl, .run (by simp [Instr.kind]) (by simp) (by simp [actionsOf, resetActions])⟩
  | init =>
    exact ⟨_, go (start .init) rfl,
      .run (by simp [Instr.kind]) (by simp) (by simp [actionsOf, initCommands, wireActions, encode])⟩
  | flush =>
    exact ⟨_, go (start .flush) rfl,
      .run (by simp [Instr.kind]) (by simp) (by simp [actionsOf, flushCommands, drawAreaCommands, wireActions, encode])⟩
  | _ =>
    exact ⟨_, go (start _) rfl, .run (by simp [Instr.kind]) (by simp) (by simp [actionsOf, wireActions, encode])⟩

/-- Everything a meaning that answers a next state can do: hold the instruction, or run its rule. -/
theorem exec_cases {i : Instr} {s t : State} (h : exec i s = .next t) :
    ((∃ op k, s.seq = .busy op k) ∧ t = s) ∨ (s.seq = .idle ∧ instrGate i s.life = none ∧ Ruled i s t) := by
  obtain ⟨rule, hr⟩ := exec_eq_accept i
  rcases accept_cases (i := i) (rule := rule) (s := s) with ⟨op, k, h0, h1⟩ | ⟨_, r, _, h1⟩ | ⟨h0, h2, h1⟩
  · rw [hr, h1] at h
    cases h
    exact .inl ⟨⟨op, k, h0⟩, rfl⟩
  · rw [hr, h1] at h
    cases h
  · obtain ⟨t', h3, h4⟩ := exec_ruled i h0 h2
    rw [h3] at h
    cases h
    exact .inr ⟨h0, h2, h4⟩

/-- What a run of actions puts on the trace: a part of the actions, in order, each with the answer it took. -/
theorem runActions_trace (op : Instr) (k : Nat) (as : List Action) (s : State) :
    ∃ new : List Event, (runActions op k as s).trace = s.trace ++ new ∧
      s.replies = (new.filter (fun e => e.action.takesAnswer)).map Event.answer ++ (runActions op k as s).replies ∧
      new.map Event.action <+: as := by
  induction as generalizing k s with
  | nil => exact ⟨[], by simp [runActions], by simp [runActions], by simp⟩
  | cons a as ih =>
    rw [runActions]
    cases hn : nextReply a s.replies with
    | ok rest =>
      obtain ⟨new, h1, h2, h3⟩ := ih (k + 1) (s.answeredOk op k a rest)
      refine ⟨⟨a, .ok⟩ :: new, by simp [h1], ?_, by simpa using h3⟩
      rcases nextReply_ok_cases hn with ⟨g1, g2⟩ | ⟨g1, g2⟩ <;> simp [g1, g2] at h2 ⊢ <;> exact h2
    | err e v rest =>
      obtain ⟨g1, g2, _⟩ := nextReply_err_cases hn
      exact ⟨[⟨a, .err e⟩], by simp, by simp [g1, g2], by simp⟩
    | silent => exact ⟨[], by simp, by simp, by simp⟩

/-- Everything a step that answers a next state can do: nothing, go on with the operation in progress, or take a word. -/
theorem step_cases {s t : State} (h : step s = .next t) :
    (s.seq = .idle ∧ s.take = none ∧ t = s) ∨
      (∃ op k a as, s.seq = .busy op k ∧ (actionsOf op s).drop k = a :: as ∧ t = runActions op k (a :: as) s) ∨
      (s.seq = .idle ∧ ∃ f u i, s.take = some (f, u) ∧ decode f = .ok i ∧ exec i u = .next t) := by
  unfold step at h
  split at h
  · rename_i op k hs
    unfold resume at h
    split at h
    · cases h
    · rename_i as hne
      injection h with h
      cases hd : (actionsOf op s).drop k with
      | nil => exact absurd hd hne
      | cons a as => exact .inr (.inl ⟨op, k, a, as, hs, hd, by rw [← h, hd]⟩)
  · rename_i hs
    split at h
    · injection h with h
      exact .inl ⟨hs, ‹_›, h.symm⟩
    · rename_i f u hi
      split at h
      · cases h
      · rename_i i hf
        refine .inr (.inr ⟨hs, f, u, i, hi, ?_, h⟩)
        unfold fetchDecode at hf
        split at hf
        · cases hf
        · split at hf
          · rename_i hd
            injection hf with hf
            rw [hd, hf]
          · cases hf

end Sys2Proof.Machine
end

