-- ==== Sys2Proof/Tests/Slice0.lean ====
section
/-! SUPPORT. Tests, and witnesses of the statements' hypotheses. Every expected value is spec/95_test_vectors.md's (named
by its section) or written out from the encoding rules R90 to R103. -/

namespace Sys2Proof.Tests

open Machine Host

/-! ## Ill-formed instructions are refused -/

theorem test_illformed_vcomh : (Instr.vcomh 0x11#8).wellFormed = false := by decide
theorem test_illformed_pixelData : (Instr.pixelData []).wellFormed = false := by decide

/-! ## Every constructor's word (R90 byte order: opcode in bits 7..0; R103: op in bits 3..0) -/

theorem test_word_displayOff : decodeTableWord 8 0b10101110 = some .displayOff := by decide
theorem test_word_displayOn : decodeTableWord 8 0b10101111 = some .displayOn := by decide
theorem test_word_clockDiv : decodeTableWord 16 0b1101001110110011 = some (.clockDiv 0b0011#4 0b1101#4) := by decide
theorem test_word_multiplex : decodeTableWord 16 0b0011111110101000 = some (.multiplex 63#8) := by decide
theorem test_word_displayOffset : decodeTableWord 16 0b0000010110100010 = some (.displayOffset 5#8) := by decide
theorem test_word_startLine : decodeTableWord 16 0b0000011110100001 = some (.startLine 7#8) := by decide
theorem test_word_remap : decodeTableWord 16 0b0111001010100000 = some (.remap 0b01110010#8) := by decide
theorem test_word_contrastA : decodeTableWord 16 0b1001000110000001 = some (.contrastA 0x91#8) := by decide
theorem test_word_contrastB : decodeTableWord 16 0b0101000010000010 = some (.contrastB 0x50#8) := by decide
theorem test_word_contrastC : decodeTableWord 16 0b0111110110000011 = some (.contrastC 0x7D#8) := by decide
theorem test_word_precharge : decodeTableWord 16 0b1111000110110001 = some (.precharge 0b0001#4 0b1111#4) := by decide
theorem test_word_vcomh : decodeTableWord 16 0b0011111010111110 = some (.vcomh 0x3E#8) := by decide
theorem test_word_allOnOff : decodeTableWord 8 0b10100100 = some .allOnOff := by decide
theorem test_word_allOnOn : decodeTableWord 8 0b10100101 = some .allOnOn := by decide
theorem test_word_invertOff : decodeTableWord 8 0b10100110 = some .invertOff := by decide
theorem test_word_invertOn : decodeTableWord 8 0b10100111 = some .invertOn := by decide
theorem test_word_columnAddress :
    decodeTableWord 24 0b000111010000101000010101 = some (.columnAddress 10#8 29#8) := by decide
theorem test_word_rowAddress :
    decodeTableWord 24 0b001001110001010001110101 = some (.rowAddress 20#8 39#8) := by decide
theorem test_word_pixelData :
    decode (.data (List.replicate fbLen 0xF8#8)) = .ok (.pixelData (List.replicate fbLen 0xF8#8)) :=
  decode_pixelData (by simp [Instr.wellFormed])
theorem test_word_new : decodeTableWord 96 (0b0001 + 0b10 * 2 ^ 88) = some (.new .deg180) := by decide
theorem test_word_reset : decodeTableWord 8 0b0010 = some .reset := by decide
theorem test_word_init : decodeTableWord 8 0b0011 = some .init := by decide
theorem test_word_clear : decodeTableWord 8 0b0100 = some .clear := by decide
theorem test_word_setPixel :
    decodeTableWord 96 (0b0101 + 0x5F * 2 ^ 8 + 0x3F * 2 ^ 40 + 0x07E0 * 2 ^ 72) =
      some (.setPixel 95#32 63#32 0x07E0#16) := by decide
theorem test_word_setDrawArea :
    decodeTableWord 96 (0b0110 + 0x140A * 2 ^ 8 + 0x281E * 2 ^ 40) = some (.setDrawArea 10#8 20#8 30#8 40#8) := by decide
theorem test_word_flush : decodeTableWord 8 0b0111 = some .flush := by decide
theorem test_word_dimensions : decodeTableWord 8 0b1000 = some .dimensions := by decide
theorem test_word_setRotation : decodeTableWord 96 (0b1001 + 0b01 * 2 ^ 88) = some (.setRotation .deg90) := by decide
theorem test_word_rotation : decodeTableWord 8 0b1010 = some .rotation := by decide
theorem test_word_release : decodeTableWord 8 0b1011 = some .release := by decide

/-- R101, R103, R105: an opcode outside the closed set, reserved ops, an unused operand bit, a byte too many, a code outside R98. -/
theorem test_words_rejected :
    decodeTableWord 8 0xE3 = none ∧ decodeTableWord 8 0x0 = none ∧ decodeTableWord 8 0xC = none ∧
      decodeTableWord 96 (0x4 + 1 * 2 ^ 8) = none ∧ decodeTableWord 16 0x01AE = none ∧
      decodeTableWord 16 0x31BE = none ∧ decode (.data [0x00#8]) = .error .wrongDataLength := by decide

/-! ## One step each -/

/-- A constructed, idle block whose environment will give these answers. -/
def live (r : Rotation) (rs : List Answer) : State := { State.reset with life := .live, rot := r, replies := rs }

/-- The events of an outcome's next state. -/
def events (o : Outcome State Fault Refusal) : List Event := ((nextOf o).map State.trace).getD []

/-- The response of an outcome's next state. -/
def respOf (o : Outcome State Fault Refusal) : Option Resp := (nextOf o).bind State.resp

/-- The framebuffer of an outcome's next state. -/
def fbOf (o : Outcome State Fault Refusal) : Memory := ((nextOf o).map State.fb).getD []

/-- Answers Ok, as many. -/
def oks (n : Nat) : List Answer := List.replicate n .ok

/-- 95 §2.1. -/
theorem test_displayOff : events (exec .displayOff (live .deg0 (oks 2))) = sentOk [[0xAE#8]] := by decide
theorem test_displayOn : events (exec .displayOn (live .deg0 (oks 2))) = sentOk [[0xAF#8]] := by decide
theorem test_clockDiv : events (exec (.clockDiv 0x3#4 0xD#4) (live .deg0 (oks 2))) = sentOk [[0xB3#8, 0xD3#8]] := by decide
theorem test_multiplex : events (exec (.multiplex 63#8) (live .deg0 (oks 2))) = sentOk [[0xA8#8, 0x3F#8]] := by decide
theorem test_displayOffset : events (exec (.displayOffset 0#8) (live .deg0 (oks 2))) = sentOk [[0xA2#8, 0#8]] := by decide
theorem test_startLine : events (exec (.startLine 0#8) (live .deg0 (oks 2))) = sentOk [[0xA1#8, 0#8]] := by decide
theorem test_remap : events (exec (.remap 0x60#8) (live .deg0 (oks 2))) = sentOk [[0xA0#8, 0x60#8]] := by decide
theorem test_contrast :
    ((nextOf (execAll (contrastCommands 0x91#8 0x50#8 0x7D#8) (live .deg0 (oks 6)))).map State.trace) =
      some (sentOk [[0x81#8, 0x91#8], [0x82#8, 0x50#8], [0x83#8, 0x7D#8]]) := by decide
theorem test_precharge : events (exec (.precharge 0x1#4 0xF#4) (live .deg0 (oks 2))) = sentOk [[0xB1#8, 0xF1#8]] := by decide
theorem test_vcomh : events (exec (.vcomh 0x30#8) (live .deg0 (oks 2))) = sentOk [[0xBE#8, 0x30#8]] := by decide
theorem test_allOnOff : events (exec .allOnOff (live .deg0 (oks 2))) = sentOk [[0xA4#8]] := by decide
theorem test_allOnOn : events (exec .allOnOn (live .deg0 (oks 2))) = sentOk [[0xA5#8]] := by decide
theorem test_invertOff : events (exec .invertOff (live .deg0 (oks 2))) = sentOk [[0xA6#8]] := by decide
theorem test_invertOn : events (exec .invertOn (live .deg0 (oks 2))) = sentOk [[0xA7#8]] := by decide
theorem test_columnAddress :
    events (exec (.columnAddress 0#8 95#8) (live .deg0 (oks 2))) = sentOk [[0x15#8, 0x00#8, 0x5F#8]] := by decide
theorem test_rowAddress :
    events (exec (.rowAddress 0#8 63#8) (live .deg0 (oks 2))) = sentOk [[0x75#8, 0x00#8, 0x3F#8]] := by decide

/-- 95 §2.1, the last two rows: a failed DcSet, a failed Write. -/
theorem test_send_fails :
    respOf (exec .displayOn (live .deg0 [.err 7])) = some (.pinErr ⟨7⟩) ∧
      events (exec .displayOn (live .deg0 [.err 7])) = [⟨.dcSet .cmd, .err 7⟩] ∧
      respOf (exec .displayOn (live .deg0 [.ok, .err 7])) = some (.commErr ⟨7⟩) := by decide

/-- 95 §2.6, through the request port: NEW from power-up leaves a live block at 90°. -/
theorem test_new : (nextOf (step (State.reset.withFetchWord 96 (0x1 + 1 * 2 ^ 88)))).map (fun t => (t.life, t.rot, t.resp)) =
    some (.live, .deg90, some .okUnit) := by decide

/-- 95 §2.4: the reset pulse, and its third action failing. -/
theorem test_reset : (events (exec .reset (live .deg0 (oks 3)))).map Event.action =
    [.rstSet .high, .delay 1, .rstSet .low, .delay 10, .rstSet .high] := by decide
theorem test_reset_fails : events (exec .reset (live .deg0 [.ok, .err 1])) =
    [⟨.rstSet .high, .ok⟩, ⟨.delay 1, .ok⟩, ⟨.rstSet .low, .err 1⟩] := by decide

/-- 95 §2.4: the 28 actions at 90°, and the error at k = 11. -/
theorem test_init : events (exec .init (live .deg90 (oks 28))) =
    sentOk [[0xAE#8], [0xB3#8, 0x08#8], [0xA8#8, 0x3F#8], [0xA2#8, 0x00#8], [0xA1#8, 0x00#8], [0xA0#8, 0x63#8],
      [0x81#8, 0x91#8], [0x82#8, 0x50#8], [0x83#8, 0x7D#8], [0xB1#8, 0xF1#8], [0xBE#8, 0x30#8], [0xA4#8], [0xA6#8],
      [0xAF#8]] := by decide
theorem test_init_fails : (events (exec .init (live .deg0 (oks 11 ++ [.err 1])))).length = 12 ∧
    (events (exec .init (live .deg0 (oks 11 ++ [.err 1])))).getLast? = some ⟨.write [0xA0#8, 0x60#8], .err 1⟩ := by decide

/-- 95 S2, S3, S4 and §2.2. -/
theorem test_clear : fbOf (exec .clear { live .deg0 [] with fb := [(970, 0xFF#8)] }) = [] := by decide
theorem test_setPixel_last : fbOf (exec (.setPixel 95#32 63#32 0x1234#16) (live .deg0 [])) =
    [(12286, 0x12#8), (12287, 0x34#8)] := by decide
theorem test_setPixel_zero_byte : fbOf (exec (.setPixel 64#32 0#32 0x001F#16) (live .deg90 [])) = [(129, 0x1F#8)] := by decide
theorem test_pixelIndex : pixelIndex .deg0 96 0 = none ∧ pixelIndex .deg0 0 64 = none ∧ pixelIndex .deg180 10 20 = some 3860 ∧
    pixelIndex .deg90 0 95 = some 12160 ∧ pixelIndex .deg90 64 95 = none ∧ pixelIndex .deg90 0 96 = none ∧
    pixelIndex .deg90 6143 0 = some 12286 ∧ pixelIndex .deg90 6144 0 = none ∧ pixelIndex .deg270 95 0 = some 190 ∧
    pixelIndex .deg0 0 0xFFFFFFFF = none := by decide

/-- 95 §2.5. -/
theorem test_setDrawArea : events (exec (.setDrawArea 10#8 20#8 30#8 40#8) (live .deg0 (oks 4))) =
    sentOk [[0x15#8, 0x0A#8, 0x1D#8], [0x75#8, 0x14#8, 0x27#8]] := by decide
theorem test_setDrawArea_empty :
    (nextOf (exec (.setDrawArea 10#8 0#8 10#8 5#8) (live .deg0 (oks 4)))).map (fun t => (t.life, t.seq, t.resp, t.trace)) =
      some (.faulted, .idle, none, []) := by decide
theorem test_flush_window : (events (exec .flush (live .deg90 (oks 4)))) =
    sentOk [[0x15#8, 0x00#8, 0x5F#8], [0x75#8, 0x00#8, 0x3F#8]] := by decide
theorem test_flush_hangs : (nextOf (exec .flush (live .deg0 (oks 5)))).map State.seq = some (.busy .flush 5) := by decide

/-- R232: the data stream's two actions. -/
theorem test_pixelData : events (exec (.pixelData [0xF8#8, 0x00#8]) (live .deg0 (oks 2))) =
    [⟨.dcSet .data, .ok⟩, ⟨.write [0xF8#8, 0x00#8], .ok⟩] := by decide

/-- 95 S1, S5, §2.6. -/
theorem test_dimensions : (respOf (exec .dimensions (live .deg270 []))).map Resp.rdata = some 0x4060#16 := by decide
theorem test_setRotation : events (exec (.setRotation .deg270) (live .deg0 (oks 2))) = sentOk [[0xA0#8, 0x71#8]] := by decide
theorem test_setRotation_fails : (nextOf (exec (.setRotation .deg90) (live .deg0 [.err 3]))).map (fun t => (t.rot, t.resp)) =
    some (.deg90, some (.pinErr ⟨3⟩)) := by decide
theorem test_rotation : (respOf (exec .rotation (live .deg270 []))).map Resp.rdata = some 0x0003#16 := by decide
theorem test_release : (nextOf (exec .release (live .deg0 []))).map State.life = some .released := by decide

/-- 95 §2.7: the request gate. -/
def gateOutcome (l : Life) (q : Request) : Option Refusal :=
  match step { State.reset with life := l, inbox := [q] } with
  | .next _ => none
  | .fault _ => none
  | .refused r => some r

theorem test_gate :
    gateOutcome .absent ⟨0x3#4, 0#32, 0#32, 0#16, 0#2⟩ = some .noInstance ∧
      gateOutcome .live ⟨0x1#4, 0#32, 0#32, 0#16, 0#2⟩ = some .alreadyConstructed ∧
      gateOutcome .live ⟨0xF#4, 0#32, 0#32, 0#16, 0#2⟩ = some .reservedOp ∧
      gateOutcome .live ⟨0x4#4, 1#32, 0#32, 0#16, 0#2⟩ = some .nonZeroUnused ∧
      gateOutcome .live ⟨0x6#4, 0x10000#32, 0x4060#32, 0#16, 0#2⟩ = some .nonZeroUnused ∧
      gateOutcome .released ⟨0x7#4, 0#32, 0#32, 0#16, 0#2⟩ = some .noInstance ∧
      gateOutcome .released ⟨0x1#4, 0#32, 0#32, 0#16, 2#2⟩ = none ∧
      gateOutcome .faulted ⟨0x0#4, 0#32, 0#32, 0#16, 0#2⟩ = some .afterFault := by decide

/-! ## Witnesses: what meets the hypotheses of each statement, clause by clause -/

theorem live_ready (r : Rotation) (rs : List Answer) : (live r rs).ready := ⟨rfl, rfl⟩

/-- A block in the middle of an operation, the action before number k answered Ok. -/
def busy (op : Instr) (k : Nat) (rs : List Answer) : State :=
  { live .deg0 rs with seq := .busy op k, trace := okEvents ((actionsOf op (live .deg0 rs)).take k) }

theorem witness_DecodeOfEncodeIsTheInstruction :
    (Instr.vcomh 0x3E#8).wellFormed = true ∧ (Instr.setPixel 0xFFFFFFFF#32 0#32 0xFFFF#16).wellFormed = true := by decide
theorem witness_EncodeOfDecodeIsTheWord :
    decode (.send [0xBE#8, 0x3E#8]) = .ok (.vcomh 0x3E#8) ∧
      decode (.request ⟨0x9#4, 0#32, 0#32, 0#16, 3#2⟩) = .ok (.setRotation .deg270) := by decide
theorem witness_CommandSetIsClosed :
    (0xE3#8 : Byte) ∉ [0xAE#8, 0xAF#8, 0xB3#8, 0xA8#8, 0xA2#8, 0xA1#8, 0xA0#8, 0x81#8, 0x82#8, 0x83#8, 0xB1#8, 0xBE#8,
        0xA4#8, 0xA5#8, 0xA6#8, 0xA7#8, 0x15#8, 0x75#8] ∧
      ({ State.reset with calls := [.send [0xE3#8]] } : State).seq = .idle := by decide

theorem witness_StepRunsTheDecodedInstruction :
    (State.reset.withFetchWord 8 0xAE).seq = .idle ∧ (State.reset.withFetchWord 8 0xAE).calls = [.send [0xAE#8]] ∧
      decode (.send [0xAE#8]) = .ok .displayOff ∧ (State.reset.withFetchWord 8 0x1).calls = [] ∧
      (State.reset.withFetchWord 8 0x1).inbox = [⟨0x1#4, 0#32, 0#32, 0#16, 0#2⟩] ∧
      decode (.request ⟨0x1#4, 0#32, 0#32, 0#16, 0#2⟩) = .ok (.new .deg0) ∧ State.reset.inbox = [] := by decide
/-- Its clause about a data stream. -/
theorem witness_StepRunsTheDecodedInstruction_data :
    ({ State.reset with calls := [.data (List.replicate fbLen 0x00#8)] } : State).calls =
        .data (List.replicate fbLen 0x00#8) :: [] ∧
      decode (.data (List.replicate fbLen 0x00#8)) = .ok (.pixelData (List.replicate fbLen 0x00#8)) :=
  ⟨rfl, decode_pixelData (by simp [Instr.wellFormed])⟩

/-- One request for each clause of RequestGateOrder, at the ends of the op ranges. -/
theorem witness_RequestGateOrder :
    (State.reset.withFetchWord 8 0x3).seq = .idle ∧
      (State.reset.withFetchWord 8 0x3).calls = [] ∧
      (∃ q, (State.reset.withFetchWord 8 0x3).inbox = [q] ∧ State.reset.life = .absent ∧
        2 ≤ q.op.toNat ∧ q.op.toNat ≤ 11) ∧
      ((live .deg0 []).life = .live ∧ Life.released ≠ Life.faulted) ∧
      ((0x0#4).toNat = 0 ∧ 12 ≤ (0xC#4).toNat ∧ 12 ≤ (0xF#4).toNat ∧ (0x1#4).toNat = 1 ∧ 2 ≤ (0x2#4).toNat ∧
        (0xB#4).toNat ≤ 11) :=
  ⟨rfl, rfl, ⟨_, rfl, rfl, by decide, by decide⟩, ⟨rfl, by decide⟩, by decide⟩
/-- Its last clause, operands in order and not: op 5 uses v, op 6 does not, nor the upper half of a. -/
theorem witness_RequestGateOrder_operands :
    (let q : Request := ⟨0x5#4, 1#32, 1#32, 0xFFFF#16, 0#2⟩
     (q.op.toNat ≠ 5 → q.v = 0#16) ∧ (q.op.toNat ≠ 1 → q.op.toNat ≠ 9 → q.r = 0#2) ∧
       (q.op.toNat ≠ 5 → q.op.toNat ≠ 6 → q.a = 0#32 ∧ q.b = 0#32)) ∧
      ¬(let q : Request := ⟨0x6#4, 0x10000#32, 0#32, 0#16, 0#2⟩
        (q.op.toNat = 6 → q.a.toNat < 2 ^ 16 ∧ q.b.toNat < 2 ^ 16)) := by decide

theorem witness_SequencerRunsActionsInOrder :
    (busy .reset 1 [.ok]).seq = .busy .reset 1 ∧
      (actionsOf .reset (busy .reset 1 [.ok])).drop 1 = [.delay 1, .rstSet .low, .delay 10, .rstSet .high] ∧
      (actionsOf .reset (busy .reset 4 [.err 1])).drop 4 = [.rstSet .high] ∧
      (actionsOf .displayOn (busy .displayOn 1 [.err 1])).drop 1 = [.write [0xAF#8]] ∧
      (actionsOf .displayOn (busy .displayOn 0 [])).drop 0 = [.dcSet .cmd, .write [0xAF#8]] ∧
      Action.takesAnswer (.delay 1) = false ∧ Action.takesAnswer (.dcSet .cmd) = true := by decide
theorem witness_BusyBlockHoldsRequests :
    (busy .reset 4 [.ok]).seq = .busy .reset 4 ∧ (nextOf (step (busy .reset 4 [.ok]))).isSome = true := by decide

theorem witness_SendIsCommandLevelThenOneWrite :
    encode (.rowAddress 0#8 63#8) = .send [0x75#8, 0#8, 63#8] ∧ (live .deg0 [.ok, .err 1]).seq = .idle ∧
      (live .deg0 [.ok, .err 1]).replies = [.ok, .err 1] ∧
      (actionsOf .init (busy .init 26 (oks 2))).drop 26 = [.dcSet .cmd, .write [0xAF#8]] ∧
      (actionsOf (.setDrawArea 0#8 0#8 1#8 1#8) (busy (.setDrawArea 0#8 0#8 1#8 1#8) 0 (oks 2))).drop 0 =
        [.dcSet .cmd, .write [0x15#8, 0#8, 0#8], .dcSet .cmd, .write [0x75#8, 0#8, 0#8]] := by decide
/-- The hypotheses of `completesWith`, of the four statements about wire forms. -/
theorem witness_completesWith : State.reset.seq = .idle ∧
    ({ State.reset with replies := oks 3 } : State).replies = .ok :: .ok :: [.ok] := by decide

theorem witness_NewConstructsTheInstance :
    State.reset.seq = .idle ∧ State.reset.life = .absent ∧ (live .deg0 []).life = .live ∧
      ({ State.reset with life := .released } : State).life = .released ∧
      ({ State.reset with life := .faulted } : State).life = .faulted := by decide
/-- The ready state and the answers of the statements about RESET, SET_ROTATION and the composites, every clause. -/
theorem witness_ready_replies :
    (live .deg0 (oks 3)).ready ∧ (live .deg0 (oks 3)).replies = .ok :: .ok :: .ok :: [] ∧
      (live .deg0 [.ok, .ok, .err 1]).replies = .ok :: .ok :: .err 1 :: [] ∧
      (live .deg0 (oks 29)).replies = List.replicate 28 .ok ++ [.ok] :=
  ⟨live_ready _ _, rfl, rfl, rfl⟩
theorem witness_ResetWritesOnlySeqAndResp :
    (nextOf (exec .reset (live .deg0 [.ok]))).map State.seq = some (.busy .reset 2) := by decide
theorem witness_encodedPlainly : decode (.request ⟨0x2#4, 0#32, 0#32, 0#16, 0#2⟩) = .ok .reset ∧
    (⟨0x2#4, 0#32, 0#32, 0#16, 1#2⟩ : Request).op = 0x2#4 := by decide

theorem witness_OperationEndsAtFirstError :
    (live .deg0 [.ok, .ok, .err 9]).ready ∧ Instr.kind .reset = .operate ∧
      actionsOf .reset (live .deg0 [.ok, .ok, .err 9]) =
        [.rstSet .high, .delay 1, .rstSet .low, .delay 10] ++ .rstSet .high :: [] ∧
      (live .deg0 [.ok, .ok, .err 9]).replies =
        List.replicate (demand [.rstSet .high, .delay 1, .rstSet .low, .delay 10]) .ok ++ .err 9 :: [] :=
  ⟨live_ready _ _, rfl, rfl, rfl⟩
/-- The same with a failed DcSet and a failed Write, of SET_ROTATION. -/
theorem witness_OperationEndsAtFirstError_send :
    actionsOf (.setRotation .deg90) (live .deg0 [.err 9]) = [] ++ .dcSet .cmd :: [.write [0xA0#8, 0x63#8]] ∧
      actionsOf (.setRotation .deg90) (live .deg0 [.ok, .err 9]) = [.dcSet .cmd] ++ .write [0xA0#8, 0x63#8] :: [] ∧
      (live .deg0 [.ok, .err 9]).replies = List.replicate (demand [.dcSet .cmd]) .ok ++ .err 9 :: [] := by decide
theorem witness_UnansweredActionHangsTheBlock :
    (live .deg0 [.ok]).ready ∧ Instr.kind .reset = .operate ∧
      actionsOf .reset (live .deg0 [.ok]) = [.rstSet .high, .delay 1] ++ .rstSet .low :: [.delay 10, .rstSet .high] ∧
      Action.takesAnswer (.rstSet .low) = true ∧
      (live .deg0 [.ok]).replies = List.replicate (demand [.rstSet .high, .delay 1]) .ok :=
  ⟨live_ready _ _, rfl, rfl, rfl, rfl⟩

theorem witness_ClearZeroesTheFramebuffer : (live .deg90 []).ready := live_ready _ _
theorem witness_NativeMapperIsExact : pixelIndex .deg180 95 63 = some 12286 ∧ pixelIndex .deg0 0 0 = some 0 := by decide
theorem witness_TurnedMapperAliases : pixelIndex .deg90 64 0 = some 128 ∧ pixelIndex .deg270 63 95 = some 12286 := by decide
theorem witness_PixelOffsetsAreEvenAndInside : pixelIndex .deg90 6143 0 = some 12286 := by decide
theorem witness_SetPixelWritesBothBytesOrNeither :
    (live .deg0 []).ready ∧ (live .deg0 []).fb.wf = true ∧
      pixelIndex (live .deg0 []).rot (95#32).toNat (63#32).toNat = some 12286 ∧
      pixelIndex (live .deg0 []).rot (96#32).toNat (0#32).toNat = none :=
  ⟨live_ready _ _, rfl, by decide, by decide⟩

theorem witness_DrawAreaSendsTheWindow :
    (live .deg0 (oks 4)).ready ∧ (0#8).toNat < (255#8).toNat ∧ (254#8).toNat < (255#8).toNat ∧
      (live .deg0 (oks 4)).replies = .ok :: .ok :: .ok :: .ok :: [] :=
  ⟨live_ready _ _, by decide, by decide, rfl⟩
theorem witness_ReversedDrawAreaFaults : (live .deg0 []).ready ∧ (10#8).toNat ≤ (10#8).toNat ∧ (0#8).toNat ≤ (255#8).toNat :=
  ⟨live_ready _ _, by decide, by decide⟩
/-- The FLUSH statements, the parameter clear and set, at a native and at a turned rotation. -/
theorem witness_flush :
    (live .deg90 (oks 6)).ready ∧ (live .deg90 (oks 6)).cfg.flushWindowRotated = false ∧
      (live .deg90 (oks 6)).replies = List.replicate 6 .ok ++ [] ∧
      ({ live .deg90 (oks 6) with cfg := { defaultConfig with flushWindowRotated := true } } : State).ready ∧
      ({ live .deg180 (oks 6) with cfg := { defaultConfig with flushWindowRotated := true } } : State).ready :=
  ⟨live_ready _ _, rfl, rfl, ⟨rfl, rfl⟩, ⟨rfl, rfl⟩⟩
theorem witness_FlushIgnoresTheRotation :
    (nextOf (exec .flush (live .deg0 [.ok, .err 1]))).map State.seq = some .idle ∧
      (nextOf (exec .flush { live .deg0 [.ok, .err 1] with rot := .deg270 })).map State.seq = some .idle := by decide
theorem witness_queries : (live .deg0 []).ready ∧ (live .deg90 []).rot = .deg90 := ⟨live_ready _ _, rfl⟩
theorem witness_ReleaseEndsTheInstance : (live .deg0 []).ready ∧ Instr.kind .flush = .operate := ⟨live_ready _ _, rfl⟩

theorem witness_AcceptedInstructionsAnswerNext :
    Instr.kind .displayOn = .wire ∧ Instr.kind .clear = .operate ∧ Instr.kind (.new .deg0) = .construct ∧
      State.reset.life = .absent ∧ (live .deg0 []).life = .live := by decide
/-- A next state of an instruction outside each list of writers. -/
theorem witness_only_writers :
    (nextOf (exec .dimensions (live .deg0 []))).isSome = true ∧ (nextOf (exec .reset (live .deg0 []))).isSome = true ∧
      (nextOf (exec .displayOn State.reset)).isSome = true := by decide
theorem witness_StepsOnlyExtendTheTrace :
    (nextOf (step { live .deg0 (oks 2) with calls := [.send [0xAF#8]] })).map State.trace = some (sentOk [[0xAF#8]]) := by
  decide
theorem witness_ErrorsComeOnlyFromActions :
    (nextOf (exec .reset (live .deg0 [.err 1]))).map State.resp = some (some (.pinErr ⟨1⟩)) := by decide
theorem witness_OperationsCompleteAfterTheirActions :
    (live .deg0 (oks 28)).ready ∧ Instr.kind .init = .operate ∧ actionCount .init ≤ 28 ∧
      (live .deg0 (oks 28)).replies = List.replicate 28 .ok ∧ (0#8).toNat < (1#8).toNat :=
  ⟨live_ready _ _, rfl, by decide, rfl, by decide⟩

/-- NEW, from both lives that accept it. -/
theorem witness_OperationsCompleteAfterTheirActions_new :
    State.reset.seq = .idle ∧ Instr.kind (.new .deg90) = .construct ∧ State.reset.life = .absent ∧
      ({ State.reset with life := .released } : State).life = .released ∧ actionCount (.new .deg90) ≤ 0 ∧
      State.reset.replies = List.replicate 0 .ok := by decide
/-- The encoding clause of DrawAreaSendsTheWindow, at the ends of the Bytes. -/
theorem witness_DrawAreaSendsTheWindow_encoding :
    decode (.request ⟨0x6#4, 0x00FF#32, 0xFF00#32, 0#16, 0#2⟩) = .ok (.setDrawArea 255#8 0#8 0#8 255#8) ∧
      (⟨0x6#4, 0x10000#32, 0#32, 0#16, 0#2⟩ : Request).op = 0x6#4 := by decide
/-- A power-up block with NEW presented, and a block in the middle of INIT, both driven by the port alone. -/
theorem witness_CommandsComeOnlyFromOperations :
    (State.reset.withFetchWord 8 0x1).hostOnly ∧ (nextOf (step (State.reset.withFetchWord 8 0x1))).isSome = true ∧
      (busy .init 1 [.ok]).hostOnly ∧ (nextOf (step (busy .init 1 [.ok]))).isSome = true ∧
      decode (.request ⟨0x3#4, 0#32, 0#32, 0#16, 0#2⟩) = .ok .init :=
  ⟨⟨rfl, fun _ _ h => nomatch h⟩, by decide, ⟨rfl, fun _ _ h => by cases h; rfl⟩, by decide, by decide⟩

/-- A state in the middle of INIT that meets the invariant and has a next state. -/
theorem witness_EveryStepKeepsTheInvariant :
    (busy .init 1 [.ok]).Inv ∧ (nextOf (step (busy .init 1 [.ok]))).map State.seq = some (.busy .init 2) :=
  ⟨⟨rfl, ⟨rfl, by decide, by decide, fun _ => rfl, by rintro _ ⟨⟩⟩, by decide, .inl rfl⟩, by decide⟩
theorem witness_CompositesAreTheirCommands :
    (live .deg0 (oks 28)).ready ∧ (live .deg0 (oks 28)).replies = List.replicate 28 .ok ++ [] ∧
      (live .deg0 (oks 28)).cfg.flushWindowRotated = false ∧ (live .deg0 (oks 6)).replies = List.replicate 6 .ok ++ [] ∧
      (live .deg0 (oks 4)).replies = List.replicate 4 .ok ++ [] ∧ (live .deg0 (oks 2)).replies = List.replicate 2 .ok ++ [] :=
  ⟨live_ready _ _, rfl, rfl, rfl, rfl, rfl⟩

/-! ## The kernel's evaluation of the host's two questions -/

theorem test_withFetchWord : (State.reset.withFetchWord 8 0xAE).calls = [.send [0xAE#8]] ∧
    (nextOf (step (State.reset.withFetchWord 8 0xAE))).map State.outstanding = some (some (.dcSet .cmd)) := by decide

end Sys2Proof.Tests
end

