-- ==== Sys2Proof/Proofs/Defaults.lean ====
section
/-! The default operand bytes and the codes (00_scope.md R7, 30_encoding.md R96 to R98, 10_state.md R31, R32). -/

namespace Sys2Proof.Machine

/-! ## The remap byte (R96, R97) -/

/-- The constant fields of R96: colour depth 65k with bit 5 set, and bits 3 and 2 clear, whatever the three flags are. -/
theorem remapOperand_colourDepth65k_fields (vflip remap inc : Bool) :
    (remapOperand colourDepth65k vflip remap inc).extractLsb' 5 3 = 0b011#3 ∧
      (remapOperand colourDepth65k vflip remap inc).extractLsb' 2 2 = 0#2 := by
  revert vflip remap inc; decide

theorem remapByte_defaultConfig_fields (r : Rotation) :
    (remapByte defaultConfig r).extractLsb' 5 3 = 0b011#3 ∧ (remapByte defaultConfig r).extractLsb' 2 2 = 0#2 := by
  cases r with
  | deg0 => exact remapOperand_colourDepth65k_fields false false false
  | deg90 => exact remapOperand_colourDepth65k_fields false true true
  | deg180 => exact remapOperand_colourDepth65k_fields true true false
  | deg270 => exact remapOperand_colourDepth65k_fields true false true

/-! ## The level codes of VCOMH (R98) -/

theorem vcomhLevel_isSome_iff (c : Byte) :
    (vcomhLevel c).isSome = true ↔ c ∈ [0x00#8, 0x10#8, 0x20#8, 0x30#8, 0x3E#8] := by
  revert c; decide

/-- The decoder takes a VCOMH operand exactly where it is a level code (40_command_layer.md R142). -/
theorem decode_send_vcomh_iff (c : Byte) :
    (∃ i, decode (.send [0xBE#8, c]) = .ok i) ↔ (vcomhLevel c).isSome = true := by
  constructor
  · rintro ⟨i, h⟩
    have hi : cmd2Instr 0xBE#8 c = some i := decodeCommand_ok h
    by_contra hc
    simp [cmd2Instr, hc] at hi
  · exact fun h => ⟨.vcomh c, decode_vcomh h⟩

/-! ## The rotation codes (R32) -/

/-- A rotation's code is what NEW and SET_ROTATION carry in `r` and what ROTATION answers in `rdata` (R102, R103). -/
theorem rotation_bits_on_ports (r : Rotation) :
    decode (.request ⟨0x1#4, 0#32, 0#32, 0#16, r.bits⟩) = .ok (.new r) ∧
      decode (.request ⟨0x9#4, 0#32, 0#32, 0#16, r.bits⟩) = .ok (.setRotation r) ∧
      (Resp.okRot r).rdata.toNat = r.bits.toNat :=
  ⟨decode_new r, decode_setRotation r, BitVec.toNat_setWidth_of_le (by decide)⟩

theorem rotation_bits_table :
    ∀ p ∈ [(Rotation.deg0, 0b00#2), (.deg90, 0b01#2), (.deg180, 0b10#2), (.deg270, 0b11#2)],
      Rotation.bits p.1 = p.2 := by
  decide

theorem life_bits_table :
    ∀ p ∈ [(Life.absent, 0b00#2), (.live, 0b01#2), (.released, 0b10#2), (.faulted, 0b11#2)], Life.bits p.1 = p.2 := by
  decide

/-- Settles O16: the parameters evaluate; the fields of R96, the codes of R98 and the rotation codes are the lemmas above. -/
theorem defaultOperandBytes : Obligations.DefaultOperandBytes := by
  refine ⟨rfl, rfl, rfl, rfl, rfl, remapByte_defaultConfig_fields, rfl, rfl, rfl, rfl, rfl, rfl, fun c => ?_,
    fun p hp => ?_, life_bits_table⟩
  · exact (decode_send_vcomh_iff c).trans (vcomhLevel_isSome_iff c)
  · have hbits := rotation_bits_table p hp
    exact ⟨hbits, hbits ▸ rotation_bits_on_ports p.1⟩

end Sys2Proof.Machine
end

/-! The state under a step (10_state.md R30 to R42): power-up, the sequencer, the writers of `fb`, `rot` and `life`, the D/C
latch, and the invariant. -/

namespace Sys2Proof.Machine

open Host (Outcome)

/-! ## The branches of a step -/

section
variable {s u : State} {f : Fetch}

theorem step_of_busy {op : Instr} {k : Nat} (hs : s.seq = .busy op k) : step s = resume op k s := by
  simp only [step, hs]

theorem step_of_take_none (hs : s.seq = .idle) (ht : s.take = none) : step s = .next s := by
  simp only [step, hs, ht]

theorem step_of_refused {r : Refusal} (hs : s.seq = .idle) (ht : s.take = some (f, u))
    (hf : fetchDecode f s.life = .error r) : step s = .refused r := by
  simp only [step, hs, ht, hf]

theorem step_of_fetched {i : Instr} (hs : s.seq = .idle) (ht : s.take = some (f, u))
    (hf : fetchDecode f s.life = .ok i) : step s = exec i u := by
  simp only [step, hs, ht, hf]

end

/-! ## Power-up (R42) -/

/-- Settles O8: nothing waits at power-up, so the step of the Idle block is the block itself. -/
theorem powerUpIsAbsentAndWaits : Obligations.PowerUpIsAbsentAndWaits :=
  ⟨rfl, rfl, rfl, rfl, step_of_take_none rfl rfl⟩

/-- Settles O50: the power-up framebuffer and trace are empty, and the sequencer is Idle. -/
theorem powerUpMeetsTheInvariant : Obligations.PowerUpMeetsTheInvariant :=
  ⟨rfl, trivial, rfl, .inl rfl⟩

/-! ## One action of the sequencer (R34) -/

/-- An answer Ok, or a Delay: the converse of `nextReply_ok_cases`. -/
theorem nextReply_eq_ok {a : Action} {rs rest : List Answer}
    (h : (a.takesAnswer = true ∧ rs = .ok :: rest) ∨ (a.takesAnswer = false ∧ rs = rest)) :
    nextReply a rs = .ok rest := by
  rcases h with ⟨ha, rfl⟩ | ⟨ha, rfl⟩
  · exact nextReply_ok ha rest
  · cases a with
    | delay ms => exact nextReply_delay ms rs
    | dcSet l => cases ha
    | write bytes => cases ha
    | rstSet l => cases ha

theorem runActions_cons_ok {op : Instr} {k : Nat} {a : Action} {as : List Action} {s : State} {rest : List Answer}
    (h : nextReply a s.replies = .ok rest) :
    runActions op k (a :: as) s = runActions op (k + 1) as (s.answeredOk op k a rest) := by
  rw [runActions, h]

theorem runActions_cons_err {op : Instr} {k : Nat} {a : Action} {as : List Action} {s : State} {e : Nat} {v : Resp}
    {rest : List Answer} (h : nextReply a s.replies = .err e v rest) :
    runActions op k (a :: as) s = s.answeredErr a e v rest := by
  rw [runActions, h]

theorem runActions_cons_silent {op : Instr} {k : Nat} {a : Action} {as : List Action} {s : State}
    (h : nextReply a s.replies = .silent) : runActions op k (a :: as) s = s.waiting op k := by
  rw [runActions, h]

/-- A block at Busy(op, k) is what waiting for action k leaves. -/
theorem State.waiting_of_busy {s : State} {op : Instr} {k : Nat} (hs : s.seq = .busy op k) : s.waiting op k = s := by
  rw [State.waiting, ← hs]

@[simp] theorem actionsOf_answeredOk (i op : Instr) (k : Nat) (a : Action) (rest : List Answer) (s : State) :
    actionsOf i (s.answeredOk op k a rest) = actionsOf i s :=
  actionsOf_congr i rfl rfl rfl

@[simp] theorem actionsOf_waiting (i op : Instr) (k : Nat) (s : State) : actionsOf i (s.waiting op k) = actionsOf i s :=
  actionsOf_congr i rfl rfl rfl

/-- After action k come the actions from number k + 1 on. -/
theorem drop_succ_of_drop {acts as : List Action} {a : Action} {k : Nat} (h : acts.drop k = a :: as) :
    acts.drop (k + 1) = as := by
  rw [← List.tail_drop, h, List.tail_cons]

section
variable {s : State} {op : Instr} {k : Nat} {a : Action} {as : List Action} {rest : List Answer}

/-- An action answered Ok that is not the last one: the operation goes on as from Busy(op, k + 1). -/
theorem step_busy_ok (hs : s.seq = .busy op k) (hd : (actionsOf op s).drop k = a :: as)
    (hn : nextReply a s.replies = .ok rest) (hne : as ≠ []) : step s = step (s.answeredOk op k a rest) := by
  obtain ⟨b, bs, rfl⟩ := List.exists_cons_of_ne_nil hne
  rw [step_busy hs hd, runActions_cons_ok hn, step_busy (s := s.answeredOk op k a rest) rfl
    (by rw [actionsOf_answeredOk]; exact drop_succ_of_drop hd)]

/-- The last action answered Ok: the operation completes. -/
theorem step_busy_last (hs : s.seq = .busy op k) (hd : (actionsOf op s).drop k = [a])
    (hn : nextReply a s.replies = .ok rest) : step s = .next ((s.answeredOk op k a rest).complete op) := by
  rw [step_busy hs hd, runActions_cons_ok hn, runActions]

/-- A failed action: the operation ends with its error. -/
theorem step_busy_err {e : Nat} {v : Resp} (hs : s.seq = .busy op k) (hd : (actionsOf op s).drop k = a :: as)
    (hn : nextReply a s.replies = .err e v rest) : step s = .next (s.answeredErr a e v rest) := by
  rw [step_busy hs hd, runActions_cons_err hn]

/-- An action without an answer: the block waits. -/
theorem step_busy_silent (hs : s.seq = .busy op k) (hd : (actionsOf op s).drop k = a :: as)
    (hn : nextReply a s.replies = .silent) : step s = .next s := by
  rw [step_busy hs hd, runActions_cons_silent hn, State.waiting_of_busy hs]

end

/-- Completion writes `seq`, and `resp` for a host operation alone. -/
theorem State.complete_eq (op : Instr) (s : State) :
    s.complete op = { s with seq := .idle, resp := if op.isWire then s.resp else some .okUnit } := by
  unfold State.complete
  split <;> rfl

/-- Settles O9: one lemma per answer of the environment to action k. -/
theorem sequencerRunsActionsInOrder : Obligations.SequencerRunsActionsInOrder := by
  intro s op k a as hs hd
  refine ⟨fun rest hr => ⟨fun hne => ?_, fun hnil => ?_⟩, fun e rest hr => ⟨?_, ?_, ?_⟩, fun ha hr => ?_⟩
  · exact step_busy_ok hs hd (nextReply_eq_ok hr) hne
  · subst hnil
    rw [step_busy_last hs hd (nextReply_eq_ok hr), State.complete_eq]
    rfl
  · rintro bytes rfl
    exact step_busy_err hs hd (by rw [hr]; rfl)
  · rintro l rfl
    exact step_busy_err hs hd (by rw [hr]; rfl)
  · rintro l rfl
    exact step_busy_err hs hd (by rw [hr]; rfl)
  · exact step_busy_silent hs hd (by rw [hr, nextReply_nil ha])

/-! ## The writers of the framebuffer, the rotation and the lifecycle (R36, R38) -/

/-- The gate lets an operation other than NEW pass only while life = Live (R104). -/
theorem live_of_instrGate {i : Instr} {l : Life} (hi : i.kind = .operate) (h : instrGate i l = none) : l = .live := by
  cases l <;> simp [instrGate, hi, lifeGate] at h ⊢

/-- The gate lets NEW pass only while life is Absent or Released (R104). -/
theorem absent_or_released_of_instrGate {r : Rotation} {l : Life} (h : instrGate (.new r) l = none) :
    l = .absent ∨ l = .released := by
  cases l <;> simp [instrGate, Instr.kind, lifeGate] at h ⊢

/-- A window out of order is empty or reversed on one of its axes (R231). -/
theorem inOrder_eq_false {sx sy ex ey : Byte} (h : inOrder sx sy ex ey = false) :
    ex.toNat ≤ sx.toNat ∨ ey.toNat ≤ sy.toNat := by
  simp only [inOrder, Bool.and_eq_false_iff, decide_eq_false_iff_not] at h
  omega

/-- Running actions writes no framebuffer byte, no rotation and no lifecycle. -/
@[simp] theorem runActions_fb (op : Instr) (k : Nat) (as : List Action) (s : State) :
    (runActions op k as s).fb = s.fb := by
  obtain ⟨-, -, h, -⟩ := runActions_frame op k as s
  exact h

@[simp] theorem runActions_rot (op : Instr) (k : Nat) (as : List Action) (s : State) :
    (runActions op k as s).rot = s.rot := by
  obtain ⟨-, h, -⟩ := runActions_frame op k as s
  exact h

@[simp] theorem runActions_life (op : Instr) (k : Nat) (as : List Action) (s : State) :
    (runActions op k as s).life = s.life := by
  obtain ⟨h, -⟩ := runActions_frame op k as s
  exact h

/-- Settles O41: of the rules only NEW's, CLEAR's and SET_PIXEL's name `fb`, and a run of actions leaves it. -/
theorem onlyThreeOperationsWriteTheFramebuffer : Obligations.OnlyThreeOperationsWriteTheFramebuffer := by
  intro i s t h hnew hclear hpixel
  rcases exec_cases h with ⟨-, rfl⟩ | ⟨-, -, hr⟩
  · rfl
  · cases hr with
    | new r hi => exact absurd hi (hnew r)
    | clear hi => exact absurd hi hclear
    | written x y v j hi hx => exact absurd hi (hpixel x y v)
    | dropped | reversed | dimensions | rotation | release => rfl
    | setRotation r hi => exact runActions_fb i 0 _ _
    | run => exact runActions_fb i 0 _ s

/-- Settles O42: NEW and SET_ROTATION write their operand, every other rule leaves `rot`. -/
theorem onlyNewAndSetRotationWriteRot : Obligations.OnlyNewAndSetRotationWriteRot := by
  intro i s t h
  rcases exec_cases h with ⟨-, rfl⟩ | ⟨-, -, hr⟩
  · exact .inl rfl
  · cases hr with
    | new r hi => exact .inr ⟨r, rfl, .inl hi⟩
    | setRotation r hi => exact .inr ⟨r, runActions_rot i 0 _ _, .inr hi⟩
    | clear | dropped | written | reversed | dimensions | rotation | release => exact .inl rfl
    | run => exact .inl (runActions_rot i 0 _ s)

/-- Settles O43: the gate says from which life NEW, RELEASE and the sticky fault start. -/
theorem onlyNewReleaseAndTheFaultWriteLife : Obligations.OnlyNewReleaseAndTheFaultWriteLife := by
  intro i s t h
  rcases exec_cases h with ⟨-, rfl⟩ | ⟨-, hg, hr⟩
  · exact .inl rfl
  · cases hr with
    | new r hi =>
      subst hi
      exact .inr (.inl ⟨rfl, ⟨r, rfl⟩, absent_or_released_of_instrGate hg⟩)
    | release hi =>
      subst hi
      exact .inr (.inr (.inl ⟨rfl, rfl, live_of_instrGate rfl hg⟩))
    | reversed sx sy ex ey hi ho =>
      subst hi
      exact .inr (.inr (.inr ⟨rfl, live_of_instrGate rfl hg, sx, sy, ex, ey, rfl, inOrder_eq_false ho⟩))
    | clear | dropped | written | dimensions | rotation => exact .inl rfl
    | setRotation r hi => exact .inl (runActions_life i 0 _ _)
    | run => exact .inl (runActions_life i 0 _ s)

/-! ## The D/C latch is written and never read (R33) -/

/-- The state with another D/C latch. -/
def State.withDc (d : DcLatch) (s : State) : State := { s with dc := d }

/-- A rule that does not read the latch: whatever `dc` it starts from, its outcome is the same, `dc` apart. -/
def IgnoresDc (rule : State → Outcome State Fault Refusal) : Prop :=
  ∀ (s : State) (d : DcLatch), ∃ d', rule (s.withDc d) = mapNext (State.withDc d') (rule s)

/-- The later of two latches stays. -/
theorem mapNext_withDc (d d' : DcLatch) (o : Outcome State Fault Refusal) :
    mapNext (State.withDc d) (mapNext (State.withDc d') o) = mapNext (State.withDc d) o := by
  cases o <;> rfl

theorem runActions_withDc (op : Instr) (k : Nat) (as : List Action) (s : State) (d : DcLatch) :
    ∃ d', runActions op k as (s.withDc d) = (runActions op k as s).withDc d' := by
  induction as generalizing k s d with
  | nil => exact ⟨d, by simp only [runActions, State.complete_eq]; rfl⟩
  | cons a as ih =>
    cases hn : nextReply a s.replies with
    | ok rest =>
      rw [runActions_cons_ok hn, runActions_cons_ok (s := s.withDc d) hn]
      exact ih (k + 1) (s.answeredOk op k a rest) (dcAfterOk a d)
    | err e v rest =>
      rw [runActions_cons_err hn, runActions_cons_err (s := s.withDc d) hn]
      exact ⟨dcAfterErr a d, rfl⟩
    | silent =>
      rw [runActions_cons_silent hn, runActions_cons_silent (s := s.withDc d) hn]
      exact ⟨d, rfl⟩

@[simp] theorem actionsOf_withDc (i : Instr) (s : State) (d : DcLatch) : actionsOf i (s.withDc d) = actionsOf i s :=
  actionsOf_congr i rfl rfl rfl

theorem start_ignoresDc (i : Instr) : IgnoresDc (start i) := by
  intro s d
  obtain ⟨d', h⟩ := runActions_withDc i 0 (actionsOf i s) s d
  exact ⟨d', by rw [start, start, actionsOf_withDc, h, mapNext]⟩

theorem resume_ignoresDc (op : Instr) (k : Nat) : IgnoresDc (resume op k) := by
  intro s d
  unfold resume
  rw [actionsOf_withDc]
  split
  · exact ⟨d, rfl⟩
  · obtain ⟨d', h⟩ := runActions_withDc op k ((actionsOf op s).drop k) s d
    exact ⟨d', by rw [h, mapNext]⟩

theorem setPixelRule_ignoresDc (x y : Word32) (v : Word16) : IgnoresDc (setPixelRule x y v) := by
  intro s d
  refine ⟨d, ?_⟩
  cases hx : pixelIndex s.rot x.toNat y.toNat with
  | none => simp only [setPixelRule, State.withDc, hx]; rfl
  | some j => simp only [setPixelRule, State.withDc, hx, memWrite_pixel hx]; rfl

theorem setDrawAreaRule_ignoresDc (sx sy ex ey : Byte) : IgnoresDc (setDrawAreaRule sx sy ex ey) := by
  intro s d
  unfold setDrawAreaRule
  split
  · exact start_ignoresDc _ s d
  · exact ⟨d, rfl⟩

theorem accept_ignoresDc {i : Instr} {rule : State → Outcome State Fault Refusal} (h : IgnoresDc rule) :
    IgnoresDc (accept i rule) := by
  intro s d
  unfold accept
  simp only [State.withDc]
  split
  · exact ⟨d, rfl⟩
  · split
    · exact ⟨d, rfl⟩
    · exact h s d

/-- No meaning reads the latch; NEW sets it to Unknown, whatever it was (R42). -/
theorem exec_ignoresDc (i : Instr) : IgnoresDc (exec i) := by
  intro s d
  cases i with
  | new r => exact accept_ignoresDc (rule := newRule r) (fun _ _ => ⟨.unknown, rfl⟩) s d
  | clear => exact accept_ignoresDc (rule := clearRule) (fun _ d => ⟨d, rfl⟩) s d
  | setPixel x y v => exact accept_ignoresDc (setPixelRule_ignoresDc x y v) s d
  | setDrawArea sx sy ex ey => exact accept_ignoresDc (setDrawAreaRule_ignoresDc sx sy ex ey) s d
  | dimensions => exact accept_ignoresDc (rule := dimensionsRule) (fun _ d => ⟨d, rfl⟩) s d
  | setRotation r =>
    exact accept_ignoresDc (rule := setRotationRule r)
      (fun s => start_ignoresDc (.setRotation r) { s with rot := r }) s d
  | rotation => exact accept_ignoresDc (rule := rotationRule) (fun _ d => ⟨d, rfl⟩) s d
  | release => exact accept_ignoresDc (rule := releaseRule) (fun _ d => ⟨d, rfl⟩) s d
  | reset | init | flush => exact accept_ignoresDc (start_ignoresDc _) s d
  | _ =>
    rw [exec_wire rfl, exec_wire rfl]
    exact accept_ignoresDc (start_ignoresDc _) s d

theorem take_withDc (s : State) (d : DcLatch) :
    (s.withDc d).take = s.take.map (fun p => (p.1, p.2.withDc d)) := by
  rcases take_cases s with ⟨c, cs, h, ht⟩ | ⟨q, rest, h, hi, ht⟩ | ⟨h, hi, ht⟩
  · rw [ht, take_call (s := s.withDc d) h]; rfl
  · rw [ht, take_request (s := s.withDc d) h hi]; rfl
  · rw [ht, take_nothing (s := s.withDc d) h hi]; rfl

theorem step_ignoresDc : IgnoresDc step := by
  intro s d
  cases hs : s.seq with
  | busy op k =>
    rw [step_of_busy hs, step_of_busy (s := s.withDc d) hs]
    exact resume_ignoresDc op k s d
  | idle =>
    have ht' := take_withDc s d
    cases ht : s.take with
    | none =>
      rw [ht] at ht'
      exact ⟨d, by rw [step_of_take_none hs ht, step_of_take_none (s := s.withDc d) hs ht']; rfl⟩
    | some p =>
      obtain ⟨f, u⟩ := p
      rw [ht] at ht'
      cases hf : fetchDecode f s.life with
      | error r =>
        exact ⟨d, by rw [step_of_refused hs ht hf, step_of_refused (s := s.withDc d) hs ht' hf]; rfl⟩
      | ok i =>
        rw [step_of_fetched hs ht hf, step_of_fetched (s := s.withDc d) hs ht' hf]
        exact exec_ignoresDc i u d

/-- Settles O47: a step does not read the latch, so what it leaves apart from `dc` is the same. -/
theorem dcLatchIsObservationOnly : Obligations.DcLatchIsObservationOnly := by
  intro s d
  obtain ⟨d', h⟩ := step_ignoresDc s d
  exact (congrArg (mapNext (State.withDc .unknown)) h).trans (mapNext_withDc _ _ _)

/-! ## No fault under the invariant (R34, R61) -/

/-- What the invariant says of an operation in progress. -/
theorem State.seqOk_waiting {s : State} {op : Instr} {k : Nat} : (s.waiting op k).seqOk ↔
    op.wellFormed = true ∧ k < (actionsOf op s).length ∧ okEvents ((actionsOf op s).take k) <:+ s.trace ∧
      (op.isWire = false → s.life = .live) ∧ (∀ r, op = .setRotation r → s.rot = r) := by
  simp only [State.seqOk, State.waiting_seq, actionsOf_waiting, State.waiting_trace, State.waiting_life,
    State.waiting_rot]

theorem exec_ne_fault (i : Instr) (s : State) (r : Fault) : exec i s ≠ .fault r := by
  obtain ⟨rule, hrule⟩ := exec_eq_accept i
  rcases accept_cases (i := i) (rule := rule) (s := s) with ⟨op, k, -, h⟩ | ⟨-, r', -, h⟩ | ⟨hs, hg, -⟩
  · simp [hrule, h]
  · simp [hrule, h]
  · obtain ⟨t, ht, -⟩ := exec_ruled i hs hg
    simp [ht]

/-- Settles O51: the sequencer is inside its action list, and no meaning faults. -/
theorem noFaultUnderTheInvariant : Obligations.NoFaultUnderTheInvariant := by
  rintro s r ⟨-, hseq, -, -⟩
  cases hs : s.seq with
  | busy op k =>
    rw [← State.waiting_of_busy hs, State.seqOk_waiting] at hseq
    obtain ⟨-, hk, -⟩ := hseq
    rw [step_busy hs (List.drop_eq_getElem_cons hk)]
    exact nofun
  | idle =>
    cases ht : s.take with
    | none =>
      rw [step_of_take_none hs ht]
      exact nofun
    | some p =>
      obtain ⟨f, u⟩ := p
      cases hf : fetchDecode f s.life with
      | error r' =>
        rw [step_of_refused hs ht hf]
        exact nofun
      | ok i =>
        rw [step_of_fetched hs ht hf]
        exact exec_ne_fault i u r

/-! ## Tagged traces (20_memory.md R70) -/

/-- The level that the newest event of a trace has driven, `prev` where the trace is empty. -/
def lineAfter (prev : Option DcLevel) (tr : List Event) : Option DcLevel := tr.foldl (fun _ e => e.drove) prev

theorem taggedFrom_append (prev : Option DcLevel) (xs ys : List Event) :
    taggedFrom prev (xs ++ ys) = (taggedFrom prev xs && taggedFrom (lineAfter prev xs) ys) := by
  induction xs generalizing prev with
  | nil => rfl
  | cons e xs ih => simp only [List.cons_append, taggedFrom, ih, Bool.and_assoc, lineAfter, List.foldl_cons]

/-- What tags an event is its action alone, not its answer. -/
theorem tagged_concat (tr : List Event) (a : Action) (r : Answer) :
    tagged (tr ++ [⟨a, r⟩]) = (tagged tr && a.taggedBy (lineAfter none tr)) := by
  simp [tagged, taggedFrom_append, taggedFrom]

/-- A trace that is tagged by itself is tagged after any event: it does not begin with a Write. -/
theorem taggedFrom_of_tagged {tr : List Event} (h : tagged tr = true) (prev : Option DcLevel) :
    taggedFrom prev tr = true := by
  cases tr with
  | nil => rfl
  | cons e es =>
    obtain ⟨a, r⟩ := e
    cases a with
    | write bytes => simp [tagged, taggedFrom, Action.taggedBy] at h
    | dcSet l => exact h
    | rstSet l => exact h
    | delay ms => exact h

theorem tagged_append {xs ys : List Event} (hx : tagged xs = true) (hy : tagged ys = true) :
    tagged (xs ++ ys) = true := by
  rw [tagged, taggedFrom_append, Bool.and_eq_true]
  exact ⟨hx, taggedFrom_of_tagged hy _⟩

theorem tagged_of_append {xs ys : List Event} (h : tagged (xs ++ ys) = true) : tagged xs = true := by
  rw [tagged, taggedFrom_append, Bool.and_eq_true] at h
  obtain ⟨hx, -⟩ := h
  exact hx

/-- The two actions of a wire form are tagged: Cmd before the bytes of a command, Data before a whole frame (R101, R130,
R232). -/
theorem tagged_wireActions (i : Instr) (h : ∀ frame, i = .pixelData frame → frame.length = fbLen) :
    tagged (okEvents (wireActions i)) = true := by
  cases i with
  | pixelData frame => simpa [wireActions, encode, tagged, taggedFrom, Event.drove, Action.taggedBy] using h frame rfl
  | _ => rfl

theorem tagged_flatMap_wireActions {is : List Instr}
    (h : ∀ i ∈ is, ∀ frame, i = .pixelData frame → frame.length = fbLen) :
    tagged (okEvents (is.flatMap wireActions)) = true := by
  induction is with
  | nil => rfl
  | cons i is ih =>
    rw [List.flatMap_cons, okEvents_append]
    exact tagged_append (tagged_wireActions i (h i (by simp))) (ih fun j hj => h j (by simp [hj]))

/-- The actions of every well-formed operation are tagged. -/
theorem tagged_actionsOf {i : Instr} (hi : i.wellFormed = true) (s : State) :
    tagged (okEvents (actionsOf i s)) = true := by
  cases i with
  | pixelData frame =>
    exact tagged_wireActions (.pixelData frame) (by rintro _ ⟨⟩; simpa [Instr.wellFormed] using hi)
  | init => exact tagged_flatMap_wireActions (by simp [initCommands, contrastCommands])
  | setDrawArea sx sy ex ey =>
    rw [actionsOf]
    split
    · exact tagged_flatMap_wireActions (by simp [drawAreaCommands])
    · rfl
  | flush =>
    have hlen := s.fb.bytes_length 0 fbLen
    rw [actionsOf, flushCommands]
    generalize s.fb.bytes 0 fbLen = frame at hlen ⊢
    exact tagged_flatMap_wireActions (by simp [drawAreaCommands, hlen])
  | _ => rfl

/-! ## The invariant (R33, R34, R36, R70) -/

/-- A decoder that tests for one instruction after the other answers a well-formed one, where each of its branches does. -/
theorem wellFormed_of_ite {α : Type} {F : Instr → α} (hF : F.Injective) {c : Prop} [Decidable c] {a i : Instr} {r : α}
    (ha : c → a.wellFormed = true) (hr : r = F i → i.wellFormed = true) :
    (if c then F a else r) = F i → i.wellFormed = true := by
  split
  · exact fun h => hF h ▸ ha ‹c›
  · exact hr

/-- A request's operation has no operand check (R103). -/
theorem requestInstr_wellFormed {q : Request} {i : Instr} : requestInstr q = .ok i → i.wellFormed = true := by
  unfold requestInstr
  iterate 11 refine wellFormed_of_ite (F := Except.ok) (fun _ _ => Except.ok.inj) (fun _ => rfl) ?_
  exact nofun

theorem cmd1Instr_wellFormed {op : Byte} {i : Instr} : cmd1Instr op = some i → i.wellFormed = true := by
  unfold cmd1Instr
  iterate 6 refine wellFormed_of_ite (Option.some_injective _) (fun _ => rfl) ?_
  exact nofun

/-- Of the commands VCOMH alone has an operand check, and the decoder makes it (R142). -/
theorem cmd2Instr_wellFormed {op p : Byte} {i : Instr} : cmd2Instr op p = some i → i.wellFormed = true := by
  unfold cmd2Instr
  iterate 9 refine wellFormed_of_ite (Option.some_injective _) (fun _ => rfl) ?_
  exact wellFormed_of_ite (Option.some_injective _) (fun ⟨_, hcode⟩ => hcode) nofun

theorem cmd3Instr_wellFormed {op s e : Byte} {i : Instr} : cmd3Instr op s e = some i → i.wellFormed = true := by
  unfold cmd3Instr
  iterate 2 refine wellFormed_of_ite (Option.some_injective _) (fun _ => rfl) ?_
  exact nofun

theorem commandInstr_wellFormed {bytes : List Byte} {i : Instr} (h : commandInstr bytes = some i) :
    i.wellFormed = true := by
  rcases bytes with _ | ⟨op, _ | ⟨p, _ | ⟨e, _ | ⟨b, bs⟩⟩⟩⟩
  · cases h
  · exact cmd1Instr_wellFormed h
  · exact cmd2Instr_wellFormed h
  · exact cmd3Instr_wellFormed h
  · cases h

theorem decode_ok_wellFormed {f : Fetch} {i : Instr} (h : decode f = .ok i) : i.wellFormed = true := by
  cases f with
  | request q =>
    obtain ⟨-, -, hq⟩ := decodeRequest_ok h
    exact requestInstr_wellFormed hq
  | send bytes => exact commandInstr_wellFormed (decodeCommand_ok h)
  | data bytes =>
    simp only [decode, decodeData] at h
    split at h
    · cases h
      assumption
    · cases h

/-- An Idle state owes the invariant nothing of the sequencer. -/
theorem State.inv_of_idle {s : State} (hs : s.seq = .idle) (hfb : s.fb.wf = true) (htr : tagged s.trace = true)
    (hdc : s.dc = .unknown ∨ s.dc = latchOf s.trace) : s.Inv :=
  ⟨hfb, by simp [State.seqOk, hs], htr, hdc⟩

/-- The latch goes on telling the line: an event that does not set it leaves it Unknown or as the trace has it. -/
theorem dcAfterEvent_tracks {d : DcLatch} {tr : List Event} (h : d = .unknown ∨ d = latchOf tr) (e : Event) :
    dcAfterEvent d e = .unknown ∨ dcAfterEvent d e = latchOf (tr ++ [e]) := by
  have hc : latchOf (tr ++ [e]) = dcAfterEvent (latchOf tr) e := by simp [latchOf]
  rcases h with rfl | rfl
  · obtain ⟨a, _ | n⟩ := e <;> cases a <;> simp [hc, dcAfterEvent, dcAfterOk, dcAfterErr]
  · exact .inr hc.symm

/-- Under the invariant, action k of the operation in progress may go on the trace, whatever its answer. -/
theorem tagged_next_action {s : State} {op : Instr} {k : Nat} {a : Action} {as : List Action}
    (h : (s.waiting op k).Inv) (hd : (actionsOf op s).drop k = a :: as) (r : Answer) :
    tagged (s.trace ++ [⟨a, r⟩]) = true := by
  obtain ⟨-, hseq, htr, -⟩ := h
  obtain ⟨hwf, -, ⟨tr, htrace⟩, -⟩ := State.seqOk_waiting.mp hseq
  rw [State.waiting_trace, ← htrace] at htr
  have hacts := tagged_actionsOf hwf s
  rw [← List.take_append_drop k (actionsOf op s), hd, okEvents_append, okEvents_cons, List.append_cons] at hacts
  have := tagged_append (tagged_of_append htr) (tagged_of_append hacts)
  rw [← List.append_assoc, htrace, tagged_concat] at this
  rwa [tagged_concat]

/-- Action k answered Ok, and it is not the last one: the sequencer moves to k + 1. -/
theorem answeredOk_inv {s : State} {op : Instr} {k : Nat} {a : Action} {as : List Action} (h : (s.waiting op k).Inv)
    (hd : (actionsOf op s).drop k = a :: as) (hne : as ≠ []) (rest : List Answer) :
    (s.answeredOk op k a rest).Inv := by
  have htagged := tagged_next_action h hd .ok
  obtain ⟨hfb, hseq, -, hdc⟩ := h
  obtain ⟨hwf, -, ⟨tr, htrace⟩, hlive, hrot⟩ := State.seqOk_waiting.mp hseq
  have hk : k + 1 < (actionsOf op s).length := by
    rw [← drop_succ_of_drop hd] at hne
    exact not_le.mp fun hle => hne (List.drop_eq_nil_of_le hle)
  have hdone : okEvents ((actionsOf op s).take (k + 1)) <:+ s.trace ++ [⟨a, .ok⟩] :=
    ⟨tr, by rw [List.take_add, hd, okEvents_append, ← List.append_assoc, htrace]; rfl⟩
  refine ⟨hfb, ?_, htagged, dcAfterEvent_tracks hdc ⟨a, .ok⟩⟩
  rw [← State.waiting_of_busy (State.answeredOk_seq s op k a rest), State.seqOk_waiting, actionsOf_answeredOk]
  exact ⟨hwf, hk, hdone, hlive, hrot⟩

/-- The last action answered Ok. -/
theorem answeredOk_complete_inv {s : State} {op : Instr} {k : Nat} {a : Action} {as : List Action}
    (h : (s.waiting op k).Inv) (hd : (actionsOf op s).drop k = a :: as) (rest : List Answer) :
    ((s.answeredOk op k a rest).complete op).Inv := by
  rw [State.complete_eq]
  have htagged := tagged_next_action h hd .ok
  obtain ⟨hfb, -, -, hdc⟩ := h
  exact State.inv_of_idle rfl hfb htagged (dcAfterEvent_tracks hdc ⟨a, .ok⟩)

/-- Action k failed. -/
theorem answeredErr_inv {s : State} {op : Instr} {k : Nat} {a : Action} {as : List Action} (h : (s.waiting op k).Inv)
    (hd : (actionsOf op s).drop k = a :: as) (e : Nat) (v : Resp) (rest : List Answer) :
    (s.answeredErr a e v rest).Inv := by
  have htagged := tagged_next_action h hd (.err e)
  obtain ⟨hfb, -, -, hdc⟩ := h
  exact State.inv_of_idle rfl hfb htagged (dcAfterEvent_tracks hdc ⟨a, .err e⟩)

/-- A run of the actions from number k on keeps the invariant. -/
theorem runActions_inv {op : Instr} {k : Nat} {as : List Action} {s : State} (h : (s.waiting op k).Inv)
    (hd : (actionsOf op s).drop k = as) (hne : as ≠ []) : (runActions op k as s).Inv := by
  induction as generalizing k s with
  | nil => exact absurd rfl hne
  | cons a as ih =>
    cases hn : nextReply a s.replies with
    | ok rest =>
      rw [runActions_cons_ok hn]
      by_cases has : as = []
      · rw [has, runActions]
        exact answeredOk_complete_inv h hd rest
      · have hnext := answeredOk_inv h hd has rest
        exact ih hnext (by rw [actionsOf_answeredOk]; exact drop_succ_of_drop hd) has
    | err e v rest =>
      rw [runActions_cons_err hn]
      exact answeredErr_inv h hd e v rest
    | silent =>
      rw [runActions_cons_silent hn]
      exact h

/-- An accepted operation with actions meets the invariant at Busy(op, 0). -/
theorem waiting_zero_inv {s : State} {i : Instr} (h : s.Inv) (hi : i.wellFormed = true) (ha : actionsOf i s ≠ [])
    (hlive : i.isWire = false → s.life = .live) (hrot : ∀ r, i = .setRotation r → s.rot = r) :
    (s.waiting i 0).Inv := by
  obtain ⟨hfb, -, htr, hdc⟩ := h
  exact ⟨hfb, State.seqOk_waiting.mpr ⟨hi, List.length_pos_of_ne_nil ha, List.nil_suffix, hlive, hrot⟩, htr, hdc⟩

/-- An instruction that is neither a wire form nor NEW is accepted only while life = Live. -/
theorem live_of_accepted {i : Instr} {l : Life} (hg : instrGate i l = none) (hk : i.kind ≠ .construct)
    (hw : i.isWire = false) : l = .live := by
  cases hi : i.kind with
  | wire => simp [Instr.isWire, hi] at hw
  | construct => exact absurd hi hk
  | operate => exact live_of_instrGate hi hg

/-- The rule of an accepted instruction keeps the invariant. -/
theorem ruled_inv {i : Instr} {s t : State} (h : s.Inv) (hs : s.seq = .idle) (hi : i.wellFormed = true)
    (hg : instrGate i s.life = none) (hr : Ruled i s t) : t.Inv := by
  have hinv := h
  obtain ⟨hfb, -, htr, hdc⟩ := h
  cases hr with
  | new r => exact State.inv_of_idle rfl Memory.zero_wf htr (.inl rfl)
  | clear => exact State.inv_of_idle rfl Memory.zero_wf htr hdc
  | written x y v j hp hx =>
    obtain ⟨-, hj⟩ := pixelIndex_bound hx
    exact State.inv_of_idle rfl (Memory.putBytes_wf hfb (show j + 2 ≤ fbLen by omega)) htr hdc
  | dropped | reversed | dimensions | rotation | release => exact State.inv_of_idle rfl hfb htr hdc
  | setRotation r hp =>
    subst hp
    have hlive := live_of_instrGate rfl hg
    have hrot : State.Inv { s with rot := r } := State.inv_of_idle hs hfb htr hdc
    exact runActions_inv (waiting_zero_inv hrot hi nofun (fun _ => hlive) (by rintro _ ⟨⟩; rfl)) rfl nofun
  | run hk hnr ha =>
    exact runActions_inv (waiting_zero_inv hinv hi ha (live_of_accepted hg hk) fun r hp => absurd hp (hnr r)) rfl ha

theorem exec_inv {i : Instr} {s t : State} (h : s.Inv) (hi : i.wellFormed = true) (he : exec i s = .next t) :
    t.Inv := by
  rcases exec_cases he with ⟨-, rfl⟩ | ⟨hs, hg, hr⟩
  · exact h
  · exact ruled_inv h hs hi hg hr

/-- The invariant says nothing of what waits. -/
theorem take_inv {s u : State} {f : Fetch} (h : s.Inv) (ht : s.take = some (f, u)) : u.Inv := by
  obtain ⟨rest, cs, rfl, -, -⟩ := take_frame ht
  exact h

/-- Settles O49: the block waits, goes on with its operation, or runs the rule of a decoded, hence well-formed, word. -/
theorem everyStepKeepsTheInvariant : Obligations.EveryStepKeepsTheInvariant := by
  intro s t h hstep
  rcases step_cases hstep with ⟨-, -, rfl⟩ | ⟨op, k, a, as, hs, hd, rfl⟩ | ⟨-, f, u, i, ht, hdec, he⟩
  · exact h
  · exact runActions_inv ((State.waiting_of_busy hs).symm ▸ h) hd (List.cons_ne_nil a as)
  · exact exec_inv (take_inv h ht) (decode_ok_wellFormed hdec) he

end Sys2Proof.Machine

/-! The memory model (20_memory.md): the offsets of the framebuffer that the mapper gives (R66), and the order of the external
actions and their answers along a step (R67, R71). -/

namespace Sys2Proof.Machine

/-! ## Offsets of the mapper (R66, 42_display_pixels.md R205) -/

/-- Settles O27: the bound of the mapper, with LEN written out. -/
theorem pixelOffsetsAreEvenAndInside : Obligations.PixelOffsetsAreEvenAndInside := by
  intro rot x y i h
  rw [← fbLen_eq]
  exact pixelIndex_bound h

/-! ## Actions and answers in order (R67, R71) -/

/-- From `s` to `t` the block has done nothing to its environment but emit actions: the new events are at the end of the
trace, those that take an answer took the next ones in order, of what waits a tail is left, and no parameter is written. -/
def State.ExtendsTo (s t : State) : Prop :=
  ∃ new : List Event, t.trace = s.trace ++ new ∧
    s.replies = (new.filter (fun e => e.action.takesAnswer)).map Event.answer ++ t.replies ∧
    t.inbox <:+ s.inbox ∧ t.calls <:+ s.calls ∧ t.cfg = s.cfg

theorem State.extendsTo_of_eq {s t : State} (htr : t.trace = s.trace) (hre : t.replies = s.replies)
    (hin : t.inbox = s.inbox) (hca : t.calls = s.calls) (hcfg : t.cfg = s.cfg) : s.ExtendsTo t :=
  ⟨[], by rw [htr, List.append_nil], hre.symm, hin ▸ List.suffix_rfl, hca ▸ List.suffix_rfl, hcfg⟩

theorem runActions_extendsTo (op : Instr) (k : Nat) (as : List Action) (s : State) :
    s.ExtendsTo (runActions op k as s) := by
  obtain ⟨new, htr, hre, -⟩ := runActions_trace op k as s
  obtain ⟨-, -, -, hin, hca, hcfg⟩ := runActions_frame op k as s
  exact ⟨new, htr, hre, hin ▸ List.suffix_rfl, hca ▸ List.suffix_rfl, hcfg⟩

/-- A rule emits by running its actions alone; the other rules touch neither the environment nor what waits. -/
theorem ruled_extendsTo {i : Instr} {s t : State} (hr : Ruled i s t) : s.ExtendsTo t := by
  cases hr with
  | setRotation r => exact runActions_extendsTo i 0 _ { s with rot := r }
  | run => exact runActions_extendsTo i 0 _ s
  | new | clear | dropped | written | reversed | dimensions | rotation | release =>
    exact State.extendsTo_of_eq rfl rfl rfl rfl rfl

theorem exec_extendsTo {i : Instr} {s t : State} (h : exec i s = .next t) : s.ExtendsTo t := by
  rcases exec_cases h with ⟨-, rfl⟩ | ⟨-, -, hr⟩
  · exact State.extendsTo_of_eq rfl rfl rfl rfl rfl
  · exact ruled_extendsTo hr

/-- What follows the taking of a word follows from the state before it: a tail of a tail is a tail. -/
theorem State.extendsTo_of_take {s u t : State} {f : Fetch} (ht : s.take = some (f, u)) (h : u.ExtendsTo t) :
    s.ExtendsTo t := by
  obtain ⟨rest, cs, rfl, hrest, hcs⟩ := take_frame ht
  obtain ⟨new, htr, hre, hin, hca, hcfg⟩ := h
  exact ⟨new, htr, hre, hin.trans hrest, hca.trans hcs, hcfg⟩

/-- Settles O44: the block waits, goes on with its operation's actions, or takes a word and runs its meaning. -/
theorem stepsOnlyExtendTheTrace : Obligations.StepsOnlyExtendTheTrace := by
  intro s t hstep
  rcases step_cases hstep with ⟨-, -, rfl⟩ | ⟨op, k, a, as, -, -, rfl⟩ | ⟨-, f, u, i, ht, -, he⟩
  · exact State.extendsTo_of_eq rfl rfl rfl rfl rfl
  · exact runActions_extendsTo op k (a :: as) s
  · exact State.extendsTo_of_take ht (exec_extendsTo he)

end Sys2Proof.Machine

/-! Encoding and the command layer (30_encoding.md): the round trip of the encoder, the request gate, the sends of the wire
forms, and the host operations as sequences of them. -/

namespace Sys2Proof.Machine

open Host (Outcome)

/-! ## The round trip (R90 to R105) -/

/-- Settles O2: the round trip of each row of the table. -/
theorem decodeOfEncodeIsTheInstruction : Obligations.DecodeOfEncodeIsTheInstruction := by
  intro i
  cases i with
  | displayOff => exact Laws.RoundTrip.displayOff
  | displayOn => exact Laws.RoundTrip.displayOn
  | clockDiv div osc => exact Laws.RoundTrip.clockDiv div osc
  | multiplex n => exact Laws.RoundTrip.multiplex n
  | displayOffset n => exact Laws.RoundTrip.displayOffset n
  | startLine n => exact Laws.RoundTrip.startLine n
  | remap p => exact Laws.RoundTrip.remap p
  | contrastA a => exact Laws.RoundTrip.contrastA a
  | contrastB b => exact Laws.RoundTrip.contrastB b
  | contrastC c => exact Laws.RoundTrip.contrastC c
  | precharge a b => exact Laws.RoundTrip.precharge a b
  | vcomh code => exact Laws.RoundTrip.vcomh code
  | allOnOff => exact Laws.RoundTrip.allOnOff
  | allOnOn => exact Laws.RoundTrip.allOnOn
  | invertOff => exact Laws.RoundTrip.invertOff
  | invertOn => exact Laws.RoundTrip.invertOn
  | columnAddress first last => exact Laws.RoundTrip.columnAddress first last
  | rowAddress first last => exact Laws.RoundTrip.rowAddress first last
  | pixelData frame => exact Laws.RoundTrip.pixelData frame
  | new r => exact Laws.RoundTrip.new r
  | reset => exact Laws.RoundTrip.reset
  | init => exact Laws.RoundTrip.init
  | clear => exact Laws.RoundTrip.clear
  | setPixel x y value => exact Laws.RoundTrip.setPixel x y value
  | setDrawArea sx sy ex ey => exact Laws.RoundTrip.setDrawArea sx sy ex ey
  | flush => exact Laws.RoundTrip.flush
  | dimensions => exact Laws.RoundTrip.dimensions
  | setRotation r => exact Laws.RoundTrip.setRotation r
  | rotation => exact Laws.RoundTrip.rotation
  | release => exact Laws.RoundTrip.release

/-! ## Fixed signals and bytes (R99, R102, R42) -/

/-- Settles O4: each of the three pairs evaluates. -/
theorem booleanCommandsSelectTheirOpcode : Obligations.BooleanCommandsSelectTheirOpcode := by
  refine ⟨⟨rfl, rfl⟩, ⟨rfl, rfl⟩, ⟨rfl, rfl⟩, ?_⟩
  simp only [List.forall_mem_cons, List.not_mem_nil, false_imp_iff, implies_true, and_true]
  exact ⟨⟨0xAE#8, 0xAF#8, rfl, rfl, by decide⟩, ⟨0xA4#8, 0xA5#8, rfl, rfl, by decide⟩,
    ⟨0xA6#8, 0xA7#8, rfl, rfl, by decide⟩⟩

theorem Resp.status_ne_three (v : Resp) : v.status ≠ 3#2 := by
  cases v <;> simp [Resp.status]

theorem Resp.rerr_eq_none_iff (v : Resp) : v.rerr = none ↔ v.status = 0#2 := by
  cases v <;> simp [Resp.rerr, Resp.status]

/-- Settles O48: the two facts of every response are lemmas, the signals of an error and of `Ok(())` evaluate. -/
theorem responsePortSignals : Obligations.ResponsePortSignals :=
  ⟨Resp.status_ne_three, Resp.rerr_eq_none_iff, fun _ => ⟨rfl, rfl, rfl⟩, fun _ => ⟨rfl, rfl, rfl⟩, rfl, rfl⟩

/-- Settles O54: the list of calls is empty at power-up and the sequencer is Idle. -/
theorem powerUpHasNoBareCall : Obligations.PowerUpHasNoBareCall :=
  ⟨rfl, nofun⟩

/-! ## The gate (R104, R105, R277) -/

theorem reservedOp_iff (op : BitVec 4) : reservedOp op = true ↔ op.toNat = 0 ∨ 12 ≤ op.toNat := by
  simp [reservedOp]

theorem op_beq_new (op : BitVec 4) : (op == 0x1#4) = decide (op.toNat = 1) := by
  revert op; decide

/-- The eleven request ops of R103. -/
theorem op_cases_of_not_reserved {op : BitVec 4} : reservedOp op = false →
    op = 0x1#4 ∨ op = 0x2#4 ∨ op = 0x3#4 ∨ op = 0x4#4 ∨ op = 0x5#4 ∨ op = 0x6#4 ∨ op = 0x7#4 ∨ op = 0x8#4 ∨
      op = 0x9#4 ∨ op = 0xA#4 ∨ op = 0xB#4 := by
  revert op; decide

/-- Every op that is not reserved has an operation: op 1 is NEW, the others are of kind operate (R103). -/
theorem exists_requestInstr {q : Request} (h : reservedOp q.op = false) :
    ∃ i, requestInstr q = .ok i ∧ i.kind = if q.op == 0x1#4 then .construct else .operate := by
  obtain ⟨op, a, b, v, r⟩ := q
  rcases op_cases_of_not_reserved h with rfl | rfl | rfl | rfl | rfl | rfl | rfl | rfl | rfl | rfl | rfl <;>
    exact ⟨_, rfl, rfl⟩

theorem kind_of_decode_request {q : Request} {i : Instr} (h : decode (.request q) = .ok i) :
    i.kind = if q.op == 0x1#4 then .construct else .operate := by
  obtain ⟨hr, -, hi⟩ := decodeRequest_ok h
  obtain ⟨j, hj, hkind⟩ := exists_requestInstr hr
  cases hi.symm.trans hj
  exact hkind

/-- No request decodes to a wire form (R103). -/
theorem isWire_of_decode_request {q : Request} {i : Instr} (h : decode (.request q) = .ok i) : i.isWire = false := by
  rw [Instr.isWire, kind_of_decode_request h]
  split <;> rfl

/-- A request with no reserved op and only zeros in its unused bits has an operation. -/
theorem exists_decode_request {q : Request} (hr : reservedOp q.op = false) (hu : unusedAreZero q = true) :
    ∃ i, decode (.request q) = .ok i := by
  obtain ⟨i, hi, -⟩ := exists_requestInstr hr
  exact ⟨i, by simp [decode, decodeRequest, hr, hu, hi]⟩

theorem requestGate_of_faulted (q : Request) : requestGate q .faulted = some .afterFault := by
  simp [requestGate]

theorem requestGate_of_reserved {q : Request} {l : Life} (hl : l ≠ .faulted) (hr : reservedOp q.op = true) :
    requestGate q l = some .reservedOp := by
  simp [requestGate, hl, hr]

/-- Past the reserved ops the gate asks for the lifecycle first, and then for the unused bits. -/
theorem requestGate_of_not_reserved {q : Request} (l : Life) (hr : reservedOp q.op = false) :
    requestGate q l = (lifeGate (q.op == 0x1#4) l).or (if unusedAreZero q then none else some .nonZeroUnused) := by
  cases l with
  | faulted => exact requestGate_of_faulted q
  | absent | live | released => cases hn : q.op == 0x1#4 <;> simp [requestGate, hr, hn, lifeGate]

/-- The gate of a request that decodes says what the gate of its operation says. -/
theorem requestGate_eq_instrGate {q : Request} {i : Instr} (h : decode (.request q) = .ok i) (l : Life) :
    requestGate q l = instrGate i l := by
  obtain ⟨hr, hu, -⟩ := decodeRequest_ok h
  rw [requestGate_of_not_reserved l hr, hu, instrGate, kind_of_decode_request h]
  cases q.op == 0x1#4 <;> simp

/-- An instruction that the gate refuses is refused at Idle. -/
theorem exec_refused {i : Instr} {s : State} {r : Refusal} (hs : s.seq = .idle) (hg : instrGate i s.life = some r) :
    exec i s = .refused r := by
  obtain ⟨rule, hrule⟩ := exec_eq_accept i
  simp [hrule, accept, hs, hg]

/-- While an operation is in progress every instruction is held (log 16). -/
theorem exec_of_busy {s : State} {op : Instr} {k : Nat} (hs : s.seq = .busy op k) (i : Instr) : exec i s = .next s := by
  obtain ⟨rule, hrule⟩ := exec_eq_accept i
  simp [hrule, accept, hs]

theorem fetchDecode_request_refused {q : Request} {l : Life} {r : Refusal} (hg : requestGate q l = some r) :
    fetchDecode (.request q) l = .error r := by
  simp [fetchDecode, hg]

theorem fetchDecode_request_ok {q : Request} {l : Life} {i : Instr} (hg : requestGate q l = none)
    (hd : decode (.request q) = .ok i) : fetchDecode (.request q) l = .ok i := by
  simp [fetchDecode, hg, hd]

/-- A call passes no gate (log 11). -/
theorem fetchDecode_call_ok {c : Call} {i : Instr} (l : Life) (hd : decode c.word = .ok i) :
    fetchDecode c.word l = .ok i := by
  cases c <;> simp_all [fetchDecode, Call.word]

theorem fetchDecode_call_error {c : Call} {e : DecodeError} (l : Life) (hd : decode c.word = .error e) :
    fetchDecode c.word l = .error (refusalOf e) := by
  cases c <;> simp_all [fetchDecode, Call.word]

/-! ## What an Idle block takes (R34, R68, R104) -/

section
variable {s : State} {q : Request} {rest : List Request} {c : Call} {cs : List Call} {i : Instr}

theorem step_request_refused {r : Refusal} (hs : s.seq = .idle) (hc : s.calls = []) (hq : s.inbox = q :: rest)
    (hg : requestGate q s.life = some r) : step s = .refused r :=
  step_of_refused hs (take_request hc hq) (fetchDecode_request_refused hg)

/-- The gate in front of the decoder and the one in `exec` agree, so a request that decodes runs its operation. -/
theorem step_request (hs : s.seq = .idle) (hc : s.calls = []) (hq : s.inbox = q :: rest)
    (hd : decode (.request q) = .ok i) : step s = exec i { s with inbox := rest } := by
  cases hg : requestGate q s.life with
  | none => exact step_of_fetched hs (take_request hc hq) (fetchDecode_request_ok hg hd)
  | some r =>
    rw [step_request_refused hs hc hq hg]
    exact (exec_refused (s := { s with inbox := rest }) hs (requestGate_eq_instrGate hd s.life ▸ hg)).symm

theorem step_call (hs : s.seq = .idle) (hc : s.calls = c :: cs) (hd : decode c.word = .ok i) :
    step s = exec i { s with calls := cs } :=
  step_of_fetched hs (take_call hc) (fetchDecode_call_ok s.life hd)

end

/-- Settles O6: one lemma for a request and one for a call. -/
theorem stepRunsTheDecodedInstruction : Obligations.StepRunsTheDecodedInstruction := fun _ hs =>
  ⟨fun _ _ _ hc hq hd => step_request hs hc hq hd,
    fun bytes _ _ hc hd => step_call (c := .send bytes) hs hc hd,
    fun bytes _ _ hc hd => step_call (c := .data bytes) hs hc hd,
    fun hc hq => step_of_take_none hs (take_nothing hc hq)⟩

/-- Outside the opcodes of R100 no length is given. -/
theorem commandLength_eq_none {op : Byte}
    (h : op ∉ [0xAE#8, 0xAF#8, 0xB3#8, 0xA8#8, 0xA2#8, 0xA1#8, 0xA0#8, 0x81#8, 0x82#8, 0x83#8, 0xB1#8, 0xBE#8, 0xA4#8,
      0xA5#8, 0xA6#8, 0xA7#8, 0x15#8, 0x75#8]) : commandLength op = none := by
  simp only [List.mem_cons, List.not_mem_nil, or_false, not_or] at h
  simp [commandLength, h]

/-- Settles O5: the decoder answers unknownOpcode, which stands for the refusal notACommand. -/
theorem commandSetIsClosed : Obligations.CommandSetIsClosed := by
  intro op args hop
  have hd : decode (.send (op :: args)) = .error (.unknownOpcode op) :=
    decodeCommand_unknown (commandLength_eq_none hop)
  refine ⟨fun i hi => ?_, fun s cs hs hc => ?_⟩
  · rw [hd] at hi
    cases hi
  · exact step_of_refused hs (take_call hc) (fetchDecode_call_error (c := .send (op :: args)) s.life hd)

/-- Settles O7: the gate's answers in the order of R277, and past it the decoder and `exec`. -/
theorem requestGateOrder : Obligations.RequestGateOrder := by
  intro s q rest hs hc hq
  have refused {r : Refusal} (hg : requestGate q s.life = some r) : step s = .refused r :=
    step_request_refused hs hc hq hg
  have unreserved (h1 : 1 ≤ q.op.toNat) (h2 : q.op.toNat ≤ 11) : reservedOp q.op = false := by
    rw [Bool.eq_false_iff, Ne, reservedOp_iff]
    omega
  refine ⟨fun hl => ?_, fun hl hop => ?_, fun hl hop => ?_, fun hl h2 h11 => ?_, fun hl => ?_⟩
  · exact refused (hl ▸ requestGate_of_faulted q)
  · exact refused (requestGate_of_reserved hl ((reservedOp_iff q.op).mpr hop))
  · apply refused
    rw [requestGate_of_not_reserved _ (unreserved (by omega) (by omega)), hl, op_beq_new]
    simp [hop, lifeGate]
  · apply refused
    have hne : q.op.toNat ≠ 1 := by omega
    rw [requestGate_of_not_reserved _ (unreserved (by omega) h11), op_beq_new]
    rcases hl with hl | hl <;> simp [hl, hne, lifeGate]
  · have hr : reservedOp q.op = false := by
      rcases hl with ⟨-, h2, h11⟩ | ⟨-, h1⟩ <;> exact unreserved (by omega) (by omega)
    have hg : lifeGate (q.op == 0x1#4) s.life = none := by
      rw [op_beq_new]
      rcases hl with ⟨hl, h2, -⟩ | ⟨hl | hl, h1⟩
      · have hne : q.op.toNat ≠ 1 := by omega
        simp [hl, hne]
      · simp [hl, h1]
      · simp [hl, h1]
    rw [← unusedAreZero_iff]
    refine ⟨fun hu => ?_, fun hu => ?_⟩
    · obtain ⟨i, hi⟩ := exists_decode_request hr hu
      exact ⟨i, hi, step_request hs hc hq hi⟩
    · exact refused (by simp [requestGate_of_not_reserved _ hr, hg, hu])

/-- Settles O40: an open gate leads to a next state (`exec_ruled`), a closed one to its refusal. -/
theorem acceptedInstructionsAnswerNext : Obligations.AcceptedInstructionsAnswerNext := by
  intro i s hs
  have answers (hg : instrGate i s.life = none) : ∃ t, exec i s = .next t := by
    obtain ⟨t, ht, -⟩ := exec_ruled i hs hg
    exact ⟨t, ht⟩
  refine ⟨fun hk => answers (instrGate_wire hk _), fun hk => ⟨fun hl => ?_, fun hl => ?_, fun hl => ?_⟩,
    fun hk => ⟨fun hl => ?_, fun hl => ?_, fun hl => ?_⟩⟩
  · exact answers (hl ▸ instrGate_live hk)
  · exact exec_refused hs (by simp [instrGate, hk, hl, lifeGate])
  · exact exec_refused hs (by rcases hl with hl | hl <;> simp [instrGate, hk, hl, lifeGate])
  · exact answers (by rcases hl with hl | hl <;> simp [instrGate, hk, hl])
  · exact exec_refused hs (by simp [instrGate, hk, hl, lifeGate])
  · exact exec_refused hs (by simp [instrGate, hk, hl, lifeGate])

/-- Settles O10: a step at Busy runs the actions of the operation in progress, which leave both lists. -/
theorem busyBlockHoldsRequests : Obligations.BusyBlockHoldsRequests := by
  intro s op k hs
  refine ⟨fun t ht => ?_, exec_of_busy hs⟩
  rcases step_cases ht with ⟨hidle, -, -⟩ | ⟨op', k', a, as, -, -, rfl⟩ | ⟨hidle, -⟩
  · cases hs.symm.trans hidle
  · obtain ⟨-, -, -, hin, hca, -⟩ := runActions_frame op' k' (a :: as) s
    exact ⟨hin, hca⟩
  · cases hs.symm.trans hidle

/-! ## Sends that the environment answers Ok (R93 to R95, R107, R130) -/

/-- The block after the actions `as` were all answered Ok and the sequencer is back at Idle. -/
def State.sent (as : List Action) (rest : List Answer) (s : State) : State :=
  { s with replies := rest, dc := latchAfter as s.dc, trace := s.trace ++ okEvents as, seq := .idle }

theorem State.sent_nil {s : State} (hs : s.seq = .idle) : s.sent [] s.replies = s := by
  simp [State.sent, ← hs]

theorem State.sent_sent (as bs : List Action) (r₁ r₂ : List Answer) (s : State) :
    (s.sent as r₁).sent bs r₂ = s.sent (as ++ bs) r₂ := by
  simp [State.sent, latchAfter]

theorem demand_append (as bs : List Action) : demand (as ++ bs) = demand as + demand bs :=
  List.countP_append

theorem demand_wireActions {i : Instr} (h : i.kind = .wire) : demand (wireActions i) = 2 := by
  cases i with
  | new | reset | init | clear | setPixel | setDrawArea | flush | dimensions | setRotation | rotation | release =>
    cases h
  | _ => rfl

theorem actionsOf_wire {i : Instr} (h : i.kind = .wire) (s : State) : actionsOf i s = wireActions i := by
  cases i with
  | new | reset | init | clear | setPixel | setDrawArea | flush | dimensions | setRotation | rotation | release =>
    cases h
  | _ => rfl

/-- Each command of a list takes two answers (R311). -/
theorem demand_flatMap_wireActions {is : List Instr} (h : ∀ i ∈ is, i.kind = .wire) :
    demand (is.flatMap wireActions) = 2 * is.length := by
  induction is with
  | nil => rfl
  | cons i is ih =>
    obtain ⟨hi, his⟩ := List.forall_mem_cons.mp h
    rw [List.flatMap_cons, demand_append, demand_wireActions hi, ih his, List.length_cons]
    omega

/-- A wire form whose two actions are answered Ok. -/
theorem exec_wire_ok {i : Instr} {s : State} {rest : List Answer} (hk : i.kind = .wire) (hs : s.seq = .idle)
    (hr : s.replies = .ok :: .ok :: rest) : exec i s = .next (s.sent (wireActions i) rest) := by
  have hw : i.isWire = true := by rw [Instr.isWire, hk]; rfl
  rw [exec_wire hk, accept_of_idle hs (instrGate_wire hk _), start, actionsOf_wire hk,
    runActions_ok (rest := rest) (by rw [demand_wireActions hk, hr]; rfl), State.complete_eq, hw]
  rfl

theorem completesWith_of_wireActions {i : Instr} {l : DcLevel} {bytes : List Byte} (hk : i.kind = .wire)
    (ha : wireActions i = [.dcSet l, .write bytes]) : completesWith i l bytes := by
  intro s rest hs hr
  rw [exec_wire_ok hk hs hr, ha, State.sent, ← hs]
  rfl

/-- Settles O13: the encoder puts the operand bytes behind the opcode. -/
theorem plainOperandsAreSentUnchanged : Obligations.PlainOperandsAreSentUnchanged :=
  ⟨fun _ => completesWith_of_wireActions rfl rfl, fun _ => completesWith_of_wireActions rfl rfl,
    fun _ => completesWith_of_wireActions rfl rfl, fun _ => completesWith_of_wireActions rfl rfl,
    fun _ => completesWith_of_wireActions rfl rfl, fun _ => completesWith_of_wireActions rfl rfl,
    fun _ _ => completesWith_of_wireActions rfl rfl, fun _ _ => completesWith_of_wireActions rfl rfl⟩

/-- Settles O14: the encoder packs two nibbles into one operand byte, and sends a packed byte as it is. -/
theorem packedOperandsAreSent : Obligations.PackedOperandsAreSent :=
  ⟨fun _ _ => completesWith_of_wireActions rfl rfl, fun _ _ => completesWith_of_wireActions rfl rfl,
    fun _ => completesWith_of_wireActions rfl rfl, fun _ => completesWith_of_wireActions rfl rfl⟩

/-! ## Composite operations (R107, R149, R176, R230, R232, R252) -/

theorem execAll_cons_of_next {i : Instr} {is : List Instr} {s t : State} (h : exec i s = .next t) :
    execAll (i :: is) s = execAll is t := by
  rw [execAll, h]

/-- Wire forms run one after the other are all their actions. -/
theorem execAll_wire_ok {is : List Instr} {s : State} {rest : List Answer} (hk : ∀ i ∈ is, i.kind = .wire)
    (hs : s.seq = .idle) (hr : s.replies = List.replicate (2 * is.length) .ok ++ rest) :
    execAll is s = .next (s.sent (is.flatMap wireActions) rest) := by
  induction is generalizing s with
  | nil =>
    have hrest : s.replies = rest := hr
    rw [← hrest, List.flatMap_nil, State.sent_nil hs, execAll]
  | cons i is ih =>
    obtain ⟨hi, his⟩ := List.forall_mem_cons.mp hk
    have hexec := exec_wire_ok (rest := List.replicate (2 * is.length) .ok ++ rest) hi hs (hr.trans rfl)
    rw [execAll_cons_of_next hexec, List.flatMap_cons, ← State.sent_sent _ _ (List.replicate (2 * is.length) .ok ++ rest)]
    exact ih his rfl rfl

/-- A host operation that runs its actions, all of them answered Ok, responds `Ok(())`. -/
theorem start_host_ok {i : Instr} {s : State} {rest : List Answer} (hw : i.isWire = false)
    (hr : s.replies = List.replicate (demand (actionsOf i s)) .ok ++ rest) :
    start i s = .next ((s.sent (actionsOf i s) rest).respond .okUnit) := by
  rw [start, runActions_ok hr, State.complete_eq, hw]
  rfl

/-- A host operation whose actions are those of a list of commands, against the commands by themselves. -/
theorem start_eq_execAll {i : Instr} {is : List Instr} {s : State} {rest : List Answer} (hw : i.isWire = false)
    (ha : actionsOf i s = is.flatMap wireActions) (hk : ∀ j ∈ is, j.kind = .wire) (hs : s.seq = .idle)
    (hr : s.replies = List.replicate (2 * is.length) .ok ++ rest) :
    ∃ t, execAll is s = .next t ∧ start i s = .next { t with resp := some .okUnit } := by
  refine ⟨_, execAll_wire_ok hk hs hr, ?_⟩
  rw [start_host_ok hw (by rwa [ha, demand_flatMap_wireActions hk]), ha]
  rfl

theorem kind_of_mem_initCommands (c : Config) (rot : Rotation) : ∀ i ∈ initCommands c rot, i.kind = .wire := by
  simp [initCommands, contrastCommands, Instr.kind]

theorem kind_of_mem_drawAreaCommands (sx sy ex ey : Byte) : ∀ i ∈ drawAreaCommands sx sy ex ey, i.kind = .wire := by
  simp [drawAreaCommands, Instr.kind]

/-- SET_DRAW_AREA with a window in order runs its action list. -/
theorem exec_setDrawArea_inOrder {s : State} {sx sy ex ey : Byte} (h : s.ready) (ho : inOrder sx sy ex ey = true) :
    exec (.setDrawArea sx sy ex ey) s = start (.setDrawArea sx sy ex ey) s := by
  obtain ⟨hs, hl⟩ := h
  refine (accept_of_idle hs (hl ▸ instrGate_live rfl)).trans ?_
  rw [setDrawAreaRule, if_pos ho]

theorem actionsOf_setDrawArea_inOrder {s : State} {sx sy ex ey : Byte} (ho : inOrder sx sy ex ey = true) :
    actionsOf (.setDrawArea sx sy ex ey) s = (drawAreaCommands sx sy ex ey).flatMap wireActions := by
  rw [actionsOf, if_pos ho]

theorem setDrawArea_eq_execAll {s : State} {rest : List Answer} {sx sy ex ey : Byte} (h : s.ready)
    (ho : inOrder sx sy ex ey = true) (hr : s.replies = List.replicate 4 .ok ++ rest) :
    ∃ t, execAll (drawAreaCommands sx sy ex ey) s = .next t ∧
      exec (.setDrawArea sx sy ex ey) s = .next { t with resp := some .okUnit } := by
  rw [exec_setDrawArea_inOrder h ho]
  obtain ⟨hs, -⟩ := h
  exact start_eq_execAll rfl (actionsOf_setDrawArea_inOrder ho) (kind_of_mem_drawAreaCommands sx sy ex ey) hs hr

theorem flushCommands_native {c : Config} (rot : Rotation) (fb : Memory) (h : c.flushWindowRotated = false) :
    flushCommands c rot fb = drawAreaCommands 0#8 0#8 96#8 64#8 ++ [.pixelData (fb.bytes 0 fbLen)] := by
  simp [flushCommands, flushWindow, h]

/-- FLUSH with the native window runs the actions of SET_DRAW_AREA and those of the data stream. -/
theorem actionsOf_flush_native {s : State} {frame : List Byte} (hc : s.cfg.flushWindowRotated = false)
    (hframe : s.fb.bytes 0 fbLen = frame) :
    actionsOf .flush s = actionsOf (.setDrawArea 0#8 0#8 96#8 64#8) s ++ wireActions (.pixelData frame) := by
  rw [actionsOf_setDrawArea_inOrder rfl, actionsOf, flushCommands_native s.rot s.fb hc, hframe, List.flatMap_append,
    List.flatMap_singleton]

theorem flush_eq_execAll {s : State} {rest : List Answer} {frame : List Byte} (h : s.ready)
    (hc : s.cfg.flushWindowRotated = false) (hframe : s.fb.bytes 0 fbLen = frame)
    (hr : s.replies = List.replicate 6 .ok ++ rest) :
    ∃ t, execAll [.setDrawArea 0#8 0#8 96#8 64#8, .pixelData frame] s = .next t ∧
      exec .flush s = .next { t with resp := some .okUnit } := by
  have hdraw := (exec_setDrawArea_inOrder h rfl).trans
    (start_host_ok (i := .setDrawArea 0#8 0#8 96#8 64#8) (rest := .ok :: .ok :: rest) rfl hr)
  obtain ⟨hs, hl⟩ := h
  have hexec : exec .flush s = start .flush s := accept_of_idle hs (hl ▸ instrGate_live rfl)
  have hactions := actionsOf_flush_native hc hframe
  refine ⟨_, (execAll_cons_of_next hdraw).trans (execAll_cons_of_next (exec_wire_ok rfl rfl rfl)), ?_⟩
  rw [hexec, start_host_ok rfl (by rw [hactions]; exact hr), hactions, ← State.sent_sent _ _ (.ok :: .ok :: rest)]
  rfl

/-- Settles O52: an operation and its commands run the same actions. -/
theorem compositesAreTheirCommands : Obligations.CompositesAreTheirCommands := by
  intro s rest h
  have hready := h
  obtain ⟨hs, hl⟩ := h
  refine ⟨fun hr => ?_, fun a b c hr => ?_, fun sx sy ex ey hx hy hr => ?_, fun hc hr => ?_, fun r hr => ?_⟩
  · have hexec : exec .init s = start .init s := accept_of_idle hs (hl ▸ instrGate_live rfl)
    rw [hexec]
    exact start_eq_execAll rfl rfl (kind_of_mem_initCommands s.cfg s.rot) hs hr
  · rw [execAll_wire_ok (by simp [Instr.kind]) hs hr, State.sent, ← hs]
    rfl
  · exact setDrawArea_eq_execAll hready (by simp [inOrder, hx, hy]) hr
  · exact flush_eq_execAll hready hc rfl hr
  · have hexec : exec (.setRotation r) s = start (.setRotation r) { s with rot := r } :=
      accept_of_idle hs (hl ▸ instrGate_live rfl)
    rw [hexec]
    exact start_eq_execAll rfl (by simp [actionsOf]) (by simp [Instr.kind]) hs hr

/-! ## A block driven by its port (R101, R103) -/

/-- A run of actions ends at Idle or waits inside its own operation. -/
theorem runActions_seq_cases (op : Instr) (k : Nat) (as : List Action) (s : State) :
    (runActions op k as s).seq = .idle ∨ ∃ k', (runActions op k as s).seq = .busy op k' := by
  rcases runActions_cases op k as s with ⟨_, -, h⟩ | ⟨_, _, _, _, _, _, -, -, -, -, h⟩ | ⟨_, _, _, -, -, -, h⟩
  · exact .inl (by rw [h, State.complete_seq])
  · exact .inl (by rw [h, State.answeredErr_seq])
  · exact .inr ⟨_, by rw [h]; rfl⟩

/-- From `s` to `t` nothing but actions of `op` from number k on was emitted, none left out, and `t` is Idle or waits inside
`op`. -/
def EmitsFrom (op : Instr) (k : Nat) (s t : State) : Prop :=
  (t.seq = .idle ∨ ∃ k', t.seq = .busy op k') ∧
    ∃ new : List Event, t.trace = s.trace ++ new ∧ new.map Event.action <+: (actionsOf op s).drop k

theorem runActions_emitsFrom {op : Instr} {k : Nat} {as : List Action} {s u : State} (htr : u.trace = s.trace)
    (h : (actionsOf op s).drop k = as) : EmitsFrom op k s (runActions op k as u) := by
  obtain ⟨new, hnew, -, hpre⟩ := runActions_trace op k as u
  exact ⟨runActions_seq_cases op k as u, new, htr ▸ hnew, h ▸ hpre⟩

theorem emitsFrom_of_silent {i : Instr} {s t : State} (hseq : t.seq = .idle) (htr : t.trace = s.trace) :
    EmitsFrom i 0 s t :=
  ⟨.inl hseq, [], by rw [htr, List.append_nil], List.nil_prefix⟩

/-- A rule emits nothing, or runs its operation's actions from number 0 on. -/
theorem ruled_emitsFrom {i : Instr} {s t : State} (hr : Ruled i s t) : EmitsFrom i 0 s t := by
  cases hr with
  | setRotation r => exact runActions_emitsFrom (u := { s with rot := r }) rfl rfl
  | run => exact runActions_emitsFrom rfl rfl
  | new | clear | dropped | written | reversed | dimensions | rotation | release => exact emitsFrom_of_silent rfl rfl

theorem hostOnly_of_emitsFrom {op : Instr} {k : Nat} {s t : State} (hw : op.isWire = false) (hc : t.calls = [])
    (h : EmitsFrom op k s t) : t.hostOnly := by
  refine ⟨hc, fun op' k' hbusy => ?_⟩
  obtain ⟨hidle | ⟨j, hj⟩, -⟩ := h
  · cases hidle.symm.trans hbusy
  · cases hj.symm.trans hbusy
    exact hw

/-- A step of a block without bare calls waits, goes on with the operation in progress, or runs the one that the oldest
request decodes to. -/
theorem step_emitsFrom {s t : State} (hc : s.calls = []) (h : step s = .next t) :
    t = s ∨ (∃ op k, s.seq = .busy op k ∧ EmitsFrom op k s t) ∨
      (s.seq = .idle ∧ ∃ q rest op, s.inbox = q :: rest ∧ decode (.request q) = .ok op ∧ EmitsFrom op 0 s t) := by
  rcases step_cases h with ⟨-, -, rfl⟩ | ⟨op, k, a, as, hs, hd, rfl⟩ | ⟨hs, f, u, i, ht, hdec, he⟩
  · exact .inl rfl
  · exact .inr (.inl ⟨op, k, hs, runActions_emitsFrom rfl hd⟩)
  · rcases take_cases s with ⟨c, cs, hcalls, -⟩ | ⟨q, rest, -, hq, htake⟩ | ⟨-, -, htake⟩
    · cases hc.symm.trans hcalls
    · cases ht.symm.trans htake
      rcases exec_cases he with ⟨⟨op, k, hbusy⟩, -⟩ | ⟨-, -, hr⟩
      · cases hs.symm.trans hbusy
      · have hactions : actionsOf i { s with inbox := rest } = actionsOf i s := actionsOf_congr i rfl rfl rfl
        obtain ⟨hseq, new, htr, hpre⟩ := ruled_emitsFrom hr
        exact .inr (.inr ⟨hs, q, rest, i, hq, hdec, hseq, new, htr, hactions ▸ hpre⟩)
    · cases ht.symm.trans htake

/-- Settles O53: the calls stay empty, and what a step emits belongs to the operation of the port. -/
theorem commandsComeOnlyFromOperations : Obligations.CommandsComeOnlyFromOperations := by
  refine ⟨fun q i h => isWire_of_decode_request h, ?_⟩
  rintro s t ⟨hcalls, hwire⟩ hstep
  have htcalls : t.calls = [] := by
    obtain ⟨-, -, -, -, hca, -⟩ := stepsOnlyExtendTheTrace s t hstep
    exact List.suffix_nil.mp (hcalls ▸ hca)
  rcases step_emitsFrom hcalls hstep with rfl | ⟨op, k, hs, hemits⟩ | ⟨hs, q, rest, op, hq, hdec, hemits⟩
  · exact ⟨⟨hcalls, hwire⟩, [], by rw [List.append_nil], .inl rfl⟩
  · have hw := hwire op k hs
    have hhost := hostOnly_of_emitsFrom hw htcalls hemits
    obtain ⟨-, new, htr, hpre⟩ := hemits
    exact ⟨hhost, new, htr, .inr ⟨op, k, hw, hpre, .inl hs⟩⟩
  · have hw := isWire_of_decode_request hdec
    have hhost := hostOnly_of_emitsFrom hw htcalls hemits
    obtain ⟨-, new, htr, hpre⟩ := hemits
    exact ⟨hhost, new, htr, .inr ⟨op, 0, hw, hpre, .inr ⟨hs, rfl, q, rest, hq, hdec⟩⟩⟩

end Sys2Proof.Machine

/-! The command layer (40_command_layer.md): the send contract of R130, of a bare send and inside any operation, and the commands
without operand. -/

namespace Sys2Proof.Machine

/-! ## The instructions that are sends (R90, R130) -/

theorem kind_of_encode_send {i : Instr} {bytes : List Byte} (h : encode i = .send bytes) : i.kind = .wire := by
  cases i with
  | new | reset | init | clear | setPixel | setDrawArea | flush | dimensions | setRotation | rotation | release =>
    cases h
  | _ => rfl

theorem wireActions_of_encode_send {i : Instr} {bytes : List Byte} (h : encode i = .send bytes) :
    wireActions i = [.dcSet .cmd, .write bytes] := by
  simp only [wireActions, h]

/-- A bare send on an Idle block runs its two actions, at any life (log 11). -/
theorem exec_send {i : Instr} {bytes : List Byte} {s : State} (h : encode i = .send bytes) (hs : s.seq = .idle) :
    exec i s = .next (runActions i 0 [.dcSet .cmd, .write bytes] s) := by
  have hk := kind_of_encode_send h
  rw [exec_wire hk, accept_of_idle hs (instrGate_wire hk _), start, actionsOf_wire hk, wireActions_of_encode_send h]

theorem completesWith_of_encode_send {i : Instr} {bytes : List Byte} (h : encode i = .send bytes) :
    completesWith i .cmd bytes :=
  completesWith_of_wireActions (kind_of_encode_send h) (wireActions_of_encode_send h)

/-! ## The answers to a send (R130) -/

section
variable {s : State} {op : Instr} {k : Nat} {bytes : List Byte} {more : List Action} {rest : List Answer} {e : Nat}

/-- The DcSet fails: a PinError, the latch Unknown, no Write. -/
theorem runActions_send_dcErr (hr : s.replies = .err e :: rest) :
    runActions op k (.dcSet .cmd :: .write bytes :: more) s = { s with
      replies := rest, dc := .unknown, trace := s.trace ++ [⟨.dcSet .cmd, .err e⟩], seq := .idle,
      resp := some (.pinErr ⟨e⟩) } :=
  runActions_cons_err (by rw [hr]; rfl)

/-- The DcSet is answered Ok: the line is at Cmd, and the Write is next. -/
theorem runActions_send_dcOk (hr : s.replies = .ok :: rest) :
    runActions op k (.dcSet .cmd :: .write bytes :: more) s =
      runActions op (k + 1) (.write bytes :: more) (s.answeredOk op k (.dcSet .cmd) rest) :=
  runActions_cons_ok (by rw [hr]; rfl)

/-- The DcSet is answered Ok and the Write is not answered: the block waits for it. -/
theorem runActions_send_writeSilent (hr : s.replies = [.ok]) :
    runActions op k (.dcSet .cmd :: .write bytes :: more) s = { s with
      replies := [], dc := .driven .cmd, trace := s.trace ++ [⟨.dcSet .cmd, .ok⟩], seq := .busy op (k + 1) } :=
  (runActions_send_dcOk hr).trans (runActions_cons_silent rfl)

/-- The Write fails: a CommunicationError. -/
theorem runActions_send_writeErr (hr : s.replies = .ok :: .err e :: rest) :
    runActions op k (.dcSet .cmd :: .write bytes :: more) s = { s with
      replies := rest, dc := .driven .cmd,
      trace := s.trace ++ [⟨.dcSet .cmd, .ok⟩, ⟨.write bytes, .err e⟩], seq := .idle, resp := some (.commErr ⟨e⟩) } := by
  rw [runActions_send_dcOk hr, runActions_cons_err rfl, State.answeredErr, State.answeredOk_trace, List.append_assoc]
  rfl

/-- The two actions of a send answered Ok inside an operation that has more to do. -/
theorem step_busy_send_ok (hs : s.seq = .busy op k)
    (hd : (actionsOf op s).drop k = .dcSet .cmd :: .write bytes :: more) (hmore : more ≠ [])
    (hr : s.replies = .ok :: .ok :: rest) :
    step s = step { s with
      replies := rest, dc := .driven .cmd,
      trace := s.trace ++ [⟨.dcSet .cmd, .ok⟩, ⟨.write bytes, .ok⟩], seq := .busy op (k + 2) } := by
  have hdc : step s = step (s.answeredOk op k (.dcSet .cmd) (.ok :: rest)) :=
    step_busy_ok hs hd (by rw [hr]; rfl) (List.cons_ne_nil _ _)
  have hwrite := step_busy_ok (s := s.answeredOk op k (.dcSet .cmd) (.ok :: rest)) (rest := rest) rfl
    (by rw [actionsOf_answeredOk]; exact drop_succ_of_drop hd) rfl hmore
  rw [hdc, hwrite, State.answeredOk, State.answeredOk_trace, List.append_assoc]
  rfl

end

/-- Settles O11: a send is two actions wherever it stands, so each answer pattern is one lemma about running them. -/
theorem sendIsCommandLevelThenOneWrite : Obligations.SendIsCommandLevelThenOneWrite := by
  refine ⟨fun i bytes s hi hs =>
      ⟨fun hr => ?_, fun e rest hr => ?_, fun hr => ?_, fun e rest hr => ?_, fun rest hr => ?_⟩,
    fun s op k bytes more hs hd => ⟨fun e rest hr => ?_, fun e rest hr => ?_, fun rest hmore hr => ?_⟩⟩
  · rw [exec_send hi hs, runActions_cons_silent (by rw [hr]; rfl), State.waiting]
  · rw [exec_send hi hs, runActions_send_dcErr hr, hs]
  · rw [exec_send hi hs, runActions_send_writeSilent hr]
  · rw [exec_send hi hs, runActions_send_writeErr hr, hs]
  · exact completesWith_of_encode_send hi s rest hs hr
  · rw [step_busy hs hd, runActions_send_dcErr hr]
  · rw [step_busy hs hd, runActions_send_writeErr hr]
  · exact step_busy_send_ok hs hd hmore hr

/-! ## The commands without operand (R131, R132, R143 to R146) -/

/-- Settles O12: the encoder gives each of the six its one byte. -/
theorem oneByteCommandsComplete : Obligations.OneByteCommandsComplete :=
  ⟨completesWith_of_encode_send rfl, completesWith_of_encode_send rfl, completesWith_of_encode_send rfl,
    completesWith_of_encode_send rfl, completesWith_of_encode_send rfl, completesWith_of_encode_send rfl⟩

end Sys2Proof.Machine

/-! The setup operations (41_display_setup.md): NEW, the reset pulse of RESET, and the fourteen commands of INIT. -/

namespace Sys2Proof.Machine

/-! ## The encodings of the host operations (R103, R105) -/

/-- `decodeRequest_ok` with its converse. -/
theorem decode_request_ok_iff {q : Request} {i : Instr} : decode (.request q) = .ok i ↔
    reservedOp q.op = false ∧ unusedAreZero q = true ∧ requestInstr q = .ok i := by
  refine ⟨decodeRequest_ok, ?_⟩
  rintro ⟨hr, hu, hi⟩
  simp [decode, decodeRequest, hr, hu, hi]

/-- The ops other than NEW, SET_PIXEL, SET_DRAW_AREA and SET_ROTATION use no operand bit. -/
theorem unusedAreZero_iff_of_no_operands {q : Request} (h : q.op.toNat ∉ [1, 5, 6, 9]) :
    unusedAreZero q = true ↔ q.a = 0#32 ∧ q.b = 0#32 ∧ q.v = 0#16 ∧ q.r = 0#2 := by
  simp only [List.mem_cons, List.not_mem_nil, or_false, not_or] at h
  rw [unusedAreZero_iff]
  tauto

/-- NEW and SET_ROTATION use the bits of `r` alone. -/
theorem unusedAreZero_iff_of_rotation_operand {q : Request} (h : q.op.toNat = 1 ∨ q.op.toNat = 9) :
    unusedAreZero q = true ↔ q.a = 0#32 ∧ q.b = 0#32 ∧ q.v = 0#16 := by
  have hne : q.op.toNat ≠ 5 ∧ q.op.toNat ≠ 6 := by omega
  rw [unusedAreZero_iff]
  tauto

theorem encodedPlainly_of_no_operands {i : Instr} {n : BitVec 4} (hr : reservedOp n = false)
    (hn : n.toNat ∉ [1, 5, 6, 9]) (hi : ∀ q : Request, q.op = n → requestInstr q = .ok i) : encodedPlainly i n := by
  rintro q rfl
  rw [decode_request_ok_iff, unusedAreZero_iff_of_no_operands hn]
  exact ⟨fun ⟨_, hz, _⟩ => hz, fun hz => ⟨hr, hz, hi q rfl⟩⟩

theorem rotationOfBits_eq_iff {b : BitVec 2} {r : Rotation} : rotationOfBits b = r ↔ b = r.bits := by
  constructor
  · rintro rfl
    exact (bits_rotationOfBits b).symm
  · rintro rfl
    exact rotationOfBits_bits r

/-- The encoding of NEW: op 1 with the rotation code, every other operand bit 0 (R103, R105). -/
theorem decode_request_new_iff {q : Request} {r : Rotation} (hq : q.op = 0x1#4) :
    decode (.request q) = .ok (.new r) ↔ q.a = 0#32 ∧ q.b = 0#32 ∧ q.v = 0#16 ∧ q.r = r.bits := by
  have hr : reservedOp q.op = false := by rw [hq]; rfl
  have hi : requestInstr q = .ok (.new (rotationOfBits q.r)) := by simp [requestInstr, hq]
  rw [decode_request_ok_iff, unusedAreZero_iff_of_rotation_operand (by simp [hq]), hi, ← rotationOfBits_eq_iff]
  simp [hr, and_assoc]

/-! ## NEW (R170) -/

theorem exec_new_accepted {r : Rotation} {s : State} (hs : s.seq = .idle) (hl : s.life = .absent ∨ s.life = .released) :
    exec (.new r) s = .next ((s.construct r).respond .okUnit) :=
  accept_of_idle (rule := newRule r) hs (by rcases hl with hl | hl <;> rw [hl] <;> rfl)

/-- Settles O17: the gate by the lifecycle, the construction values, and the encoding of NEW. -/
theorem newConstructsTheInstance : Obligations.NewConstructsTheInstance := by
  intro r s hs
  refine ⟨fun hl => ⟨Memory.zero, ?_, Memory.zero_read⟩, fun hl => ?_, fun hl => ?_, fun q => decode_request_new_iff⟩
  · rw [exec_new_accepted hs hl, State.respond, ← hs]
    rfl
  · exact exec_refused hs (by rw [hl]; rfl)
  · exact exec_refused hs (by rw [hl]; rfl)

/-! ## The D/C latch under actions that do not drive the line (R33) -/

theorem dcAfterOk_of_ne_dcSet {a : Action} (h : ∀ l, .dcSet l ≠ a) (d : DcLatch) : dcAfterOk a d = d := by
  cases a with
  | dcSet l => exact absurd rfl (h l)
  | write | rstSet | delay => rfl

theorem dcAfterErr_of_ne_dcSet {a : Action} (h : ∀ l, .dcSet l ≠ a) (d : DcLatch) : dcAfterErr a d = d := by
  cases a with
  | dcSet l => exact absurd rfl (h l)
  | write | rstSet | delay => rfl

/-- Actions without a DcSet leave the latch, whatever the environment answers. -/
theorem runActions_dc_of_no_dcSet {op : Instr} {k : Nat} {as : List Action} {s : State} (h : ∀ l, .dcSet l ∉ as) :
    (runActions op k as s).dc = s.dc := by
  induction as generalizing k s with
  | nil => exact State.complete_dc s op
  | cons a as ih =>
    simp only [List.mem_cons, not_or, forall_and] at h
    obtain ⟨ha, has⟩ := h
    rw [runActions]
    cases nextReply a s.replies with
    | ok rest => exact (ih has).trans (dcAfterOk_of_ne_dcSet ha s.dc)
    | err e v rest => exact dcAfterErr_of_ne_dcSet ha s.dc
    | silent => rfl

/-- Actions without a DcSet write no block state but `seq` and `resp` (R174). -/
theorem runActions_eq_of_no_dcSet {op : Instr} {k : Nat} {as : List Action} {s : State} (h : ∀ l, .dcSet l ∉ as) :
    runActions op k as s = { s with
      seq := (runActions op k as s).seq, resp := (runActions op k as s).resp,
      trace := (runActions op k as s).trace, replies := (runActions op k as s).replies } := by
  obtain ⟨hlife, hrot, hfb, hin, hca, hcfg⟩ := runActions_frame op k as s
  rw [← hlife, ← hrot, ← hfb, ← hin, ← hca, ← hcfg, ← runActions_dc_of_no_dcSet (op := op) (k := k) h]

/-! ## RESET (R173, R174) -/

theorem dcSet_not_mem_resetActions (l : DcLevel) : .dcSet l ∉ resetActions := by
  simp [resetActions]

/-- RESET on a live Idle block runs its five actions. -/
theorem exec_reset {s : State} (h : s.ready) : exec .reset s = .next (runActions .reset 0 resetActions s) := by
  obtain ⟨hs, hl⟩ := h
  exact accept_of_idle (rule := start .reset) hs (hl ▸ instrGate_live rfl)

/-- Settles O19: RESET is held and leaves the block, or runs its five actions, of which none is a DcSet. -/
theorem resetWritesOnlySeqAndResp : Obligations.ResetWritesOnlySeqAndResp := by
  intro s t h
  rcases exec_cases h with ⟨-, rfl⟩ | ⟨hs, hg, -⟩
  · rfl
  · rw [exec_reset ⟨hs, live_of_instrGate rfl hg⟩] at h
    cases h
    exact runActions_eq_of_no_dcSet dcSet_not_mem_resetActions

/-- Where an action fails after others were answered Ok, the operation ends there and emits nothing more (R274). -/
theorem runActions_err_after_ok {op : Instr} {k : Nat} {pre post : List Action} {a : Action} {s : State} {e : Nat}
    {v : Resp} {rest : List Answer} (hr : s.replies = List.replicate (demand pre) .ok ++ .err e :: rest)
    (hn : nextReply a (.err e :: rest) = .err e v rest) :
    runActions op k (pre ++ a :: post) s = (s.ran op k pre (.err e :: rest)).answeredErr a e v rest := by
  rw [runActions_append hr]
  exact runActions_cons_err hn

/-- RESET with the failing RstSet at any place: a PinError, and no later action. -/
theorem exec_reset_err {pre post : List Action} {l : PinLevel} {s : State} {e : Nat} {rest : List Answer} (h : s.ready)
    (hsplit : resetActions = pre ++ .rstSet l :: post)
    (hr : s.replies = List.replicate (demand pre) .ok ++ .err e :: rest) :
    exec .reset s = .next { s with
      replies := rest, resp := some (.pinErr ⟨e⟩), trace := s.trace ++ (okEvents pre ++ [⟨.rstSet l, .err e⟩]) } := by
  have hrun := exec_reset h
  rw [hsplit, runActions_err_after_ok hr rfl] at hrun
  obtain ⟨hs, -⟩ := h
  rw [hrun, resetWritesOnlySeqAndResp s _ hrun, ← List.append_assoc, State.answeredErr_seq, ← hs]
  rfl

/-- Settles O18: all five answered Ok, or one of the three RstSets failing. -/
theorem resetPulsesTheLine : Obligations.ResetPulsesTheLine := by
  refine ⟨encodedPlainly_of_no_operands rfl (by decide) fun q hq => by simp [requestInstr, hq], fun s h =>
    ⟨fun rest hr => ?_, fun e rest hr => ?_, fun e rest hr => ?_, fun e rest hr => ?_⟩⟩
  · have hrun := exec_reset h
    obtain ⟨hs, -⟩ := h
    rw [hrun, runActions_ok (rest := rest) hr, State.complete_eq, ← hs]
    rfl
  · exact exec_reset_err (pre := []) h rfl hr
  · exact exec_reset_err (pre := [.rstSet .high, .delay 1]) h rfl hr
  · exact exec_reset_err (pre := [.rstSet .high, .delay 1, .rstSet .low, .delay 10]) h rfl hr

/-! ## INIT (R176, R177) -/

/-- The trace of a list of sends that were all answered Ok is the trace of their bytes (R130). -/
theorem okEvents_flatMap_wireActions {is : List Instr} {commands : List (List Byte)}
    (h : is.map encode = commands.map Fetch.send) : okEvents (is.flatMap wireActions) = sentOk commands := by
  induction is generalizing commands with
  | nil => rw [List.map_eq_nil_iff.mp h.symm]; rfl
  | cons i is ih =>
    obtain ⟨bytes, commands, rfl, hi, his⟩ := List.map_eq_cons_iff.mp h.symm
    rw [List.flatMap_cons, okEvents_append, ih his.symm, wireActions_of_encode_send hi.symm]
    rfl

/-- The bytes of the fourteen commands, with the parameter bytes whole: their nibbles are packed again. -/
theorem map_encode_initCommands (c : Config) (rot : Rotation) : (initCommands c rot).map encode =
    List.map Fetch.send [[0xAE#8], [0xB3#8, c.clockDivByte], [0xA8#8, 0x3F#8], [0xA2#8, 0x00#8], [0xA1#8, 0x00#8],
      [0xA0#8, remapByte c rot], [0x81#8, 0x91#8], [0x82#8, 0x50#8], [0x83#8, 0x7D#8], [0xB1#8, c.preChargeByte],
      [0xBE#8, c.vcomhByte], [0xA4#8], [0xA6#8], [0xAF#8]] := by
  simp [initCommands, contrastCommands, encode, clockDivOperand, preChargeOperand]

/-- Settles O20: the actions of INIT are those of its fourteen commands, of which each takes two answers. -/
theorem initSendsTheFourteenCommands : Obligations.InitSendsTheFourteenCommands := by
  refine ⟨encodedPlainly_of_no_operands rfl (by decide) fun q hq => by simp [requestInstr, hq], ?_⟩
  rintro s rest ⟨hs, hl⟩ hr
  have hexec : exec .init s = start .init s := accept_of_idle hs (hl ▸ instrGate_live rfl)
  have hdemand : demand (actionsOf .init s) = 28 := demand_flatMap_wireActions (kind_of_mem_initCommands s.cfg s.rot)
  have htrace := okEvents_flatMap_wireActions (map_encode_initCommands s.cfg s.rot)
  rw [hexec, start_host_ok rfl (hdemand ▸ hr), State.sent, ← htrace, State.respond, ← hs]
  rfl

end Sys2Proof.Machine

/-! The framebuffer operations (42_display_pixels.md): the pixel mapper of R203 at the native and at the turned rotations, CLEAR,
and SET_PIXEL. -/

namespace Sys2Proof.Machine

/-! ## The pixel mapper (R202, R203, R205) -/

theorem isTurned_eq_false_iff {rot : Rotation} : isTurned rot = false ↔ rot = .deg0 ∨ rot = .deg180 := by
  cases rot <;> decide

theorem isTurned_eq_true_iff {rot : Rotation} : isTurned rot = true ↔ rot = .deg90 ∨ rot = .deg270 := by
  cases rot <;> decide

theorem axisIndex_native {rot : Rotation} (h : isTurned rot = false) (x y i : Nat) :
    axisIndex rot x y = some i ↔ x < 96 ∧ i = (y * 96 + x) * 2 := by
  simp [axisIndex, h, nativeWidth_eq, eq_comm]

theorem axisIndex_turned {rot : Rotation} (h : isTurned rot = true) (x y i : Nat) :
    axisIndex rot x y = some i ↔ y < 96 ∧ i = (y * 64 + x) * 2 := by
  simp [axisIndex, h, nativeWidth_eq, nativeHeight_eq, eq_comm]

/-- The mapper is the axis index with the final check: the pixel's second byte is at most the last one (R205). -/
theorem pixelIndex_eq_some_iff {rot : Rotation} {x y i : Nat} :
    pixelIndex rot x y = some i ↔ axisIndex rot x y = some i ∧ i + 1 ≤ 12287 := by
  unfold pixelIndex
  cases axisIndex rot x y with
  | none => simp
  | some j =>
    have hlen := fbLen_eq
    simp only [Option.ite_none_left_eq_some, Option.some.injEq]
    omega

theorem pixelIndex_native {rot : Rotation} (h : isTurned rot = false) (x y i : Nat) :
    pixelIndex rot x y = some i ↔ x < 96 ∧ i = (y * 96 + x) * 2 ∧ i + 1 ≤ 12287 := by
  rw [pixelIndex_eq_some_iff, axisIndex_native h, and_assoc]

theorem pixelIndex_turned {rot : Rotation} (h : isTurned rot = true) (x y i : Nat) :
    pixelIndex rot x y = some i ↔ y < 96 ∧ i = (y * 64 + x) * 2 ∧ i + 1 ≤ 12287 := by
  rw [pixelIndex_eq_some_iff, axisIndex_turned h, and_assoc]

/-- Settles O24: one formula at the native rotations, the other at the turned ones. -/
theorem pixelIndexFormula : Obligations.PixelIndexFormula := by
  intro rot x y i
  rw [← isTurned_eq_false_iff, ← isTurned_eq_true_iff]
  cases h : isTurned rot with
  | false => simp [pixelIndex_native h]
  | true => simp [pixelIndex_turned h]

/-! ## Which coordinates are written (R206, R207) -/

/-- With x inside a row, the final check is the missing check of y against H: 64 × 96 is the number of pixels (R206). -/
theorem exists_pixelIndex_native {rot : Rotation} (h : isTurned rot = false) (x y : Nat) :
    (∃ i, pixelIndex rot x y = some i) ↔ x < 96 ∧ y < 64 := by
  simp only [pixelIndex_native h]
  constructor
  · rintro ⟨i, hx, rfl, hi⟩
    exact ⟨hx, by omega⟩
  · rintro ⟨hx, hy⟩
    exact ⟨_, hx, rfl, by omega⟩

/-- x and y are the remainder and the quotient by 96 of half the offset. -/
theorem pixelIndex_native_injective {rot : Rotation} (h : isTurned rot = false) {x y x' y' i : Nat}
    (h₁ : pixelIndex rot x y = some i) (h₂ : pixelIndex rot x' y' = some i) : x = x' ∧ y = y' := by
  obtain ⟨hx, hi, -⟩ := (pixelIndex_native h x y i).mp h₁
  obtain ⟨hx', hi', -⟩ := (pixelIndex_native h x' y' i).mp h₂
  omega

/-- Settles O25: the final check bounds y, and an offset gives its coordinate back. -/
theorem nativeMapperIsExact : Obligations.NativeMapperIsExact := by
  intro rot hrot
  have h := isTurned_eq_false_iff.mpr hrot
  exact ⟨exists_pixelIndex_native h, fun _ _ _ _ _ => pixelIndex_native_injective h⟩

theorem exists_pixelIndex_turned {rot : Rotation} (h : isTurned rot = true) (x y : Nat) :
    (∃ i, pixelIndex rot x y = some i) ↔ y < 96 ∧ y * 64 + x ≤ 6143 := by
  simp only [pixelIndex_turned h]
  constructor
  · rintro ⟨i, hy, rfl, hi⟩
    exact ⟨hy, by omega⟩
  · rintro ⟨hy, hp⟩
    exact ⟨_, hy, rfl, by omega⟩

/-- The offset depends on the pixel number y × 64 + x alone, so the coordinate of that number inside the panel has it too
(R207). -/
theorem pixelIndex_turned_alias {rot : Rotation} (h : isTurned rot = true) {x y i : Nat}
    (hi : pixelIndex rot x y = some i) :
    pixelIndex rot ((y * 64 + x) % 64) ((y * 64 + x) / 64) = some i := by
  obtain ⟨-, hp, hlast⟩ := (pixelIndex_turned h x y i).mp hi
  exact (pixelIndex_turned h _ _ i).mpr ⟨by omega, by omega, hlast⟩

/-- Settles O26: x is bounded by the final check alone, and a large x falls on a later row. -/
theorem turnedMapperAliases : Obligations.TurnedMapperAliases := by
  intro rot hrot x y
  have h := isTurned_eq_true_iff.mpr hrot
  refine ⟨exists_pixelIndex_turned h x y, fun i hi => ⟨?_, pixelIndex_turned_alias h hi⟩⟩
  obtain ⟨-, hp, -⟩ := (pixelIndex_turned h x y i).mp hi
  rw [hp, Nat.mul_comm]

/-! ## Operations without actions on a live Idle block (R104) -/

theorem accept_of_ready {i : Instr} {rule : State → Host.Outcome State Fault Refusal} {s : State} (h : s.ready)
    (hi : i.kind = .operate) : accept i rule s = rule s := by
  obtain ⟨hs, hl⟩ := h
  exact accept_of_idle hs (hl ▸ instrGate_live hi)

/-! ## CLEAR (R200) -/

/-- Settles O23: CLEAR leaves the framebuffer of zeros, and its op uses no operand bit. -/
theorem clearZeroesTheFramebuffer : Obligations.ClearZeroesTheFramebuffer := by
  refine ⟨encodedPlainly_of_no_operands rfl (by decide) fun q hq => by simp [requestInstr, hq], fun s h =>
    ⟨Memory.zero, ?_, Memory.zero_read⟩⟩
  have hexec : exec .clear s = clearRule s := accept_of_ready h rfl
  obtain ⟨hs, -⟩ := h
  simp only [hexec, clearRule, State.respond, hs]

/-! ## SET_PIXEL (R204) -/

/-- SET_PIXEL uses every operand bit but those of `r`. -/
theorem unusedAreZero_iff_of_pixel_operands {q : Request} (h : q.op.toNat = 5) :
    unusedAreZero q = true ↔ q.r = 0#2 := by
  rw [unusedAreZero_iff]
  simp [h]

theorem decode_request_setPixel_iff {q : Request} {x y : Word32} {v : Word16} (hq : q.op = 0x5#4) :
    decode (.request q) = .ok (.setPixel x y v) ↔ q.a = x ∧ q.b = y ∧ q.v = v ∧ q.r = 0#2 := by
  have hr : reservedOp q.op = false := by rw [hq]; rfl
  have hi : requestInstr q = .ok (.setPixel q.a q.b q.v) := by simp [requestInstr, hq]
  rw [decode_request_ok_iff, unusedAreZero_iff_of_pixel_operands (by simp [hq]), hi, Except.ok.injEq,
    Instr.setPixel.injEq]
  tauto

/-- The framebuffer after the two bytes of a pixel: v[15:8] at i, v[7:0] after it, and every other byte as before. -/
theorem Memory.read_putBytes_pixel {m : Memory} (hm : m.wf = true) {i : Nat} (hi : i < fbLen) (v : Word16) (j : Nat) :
    (m.putBytes i (pixelBytes v)).read j =
      if j = i + 1 then v.extractLsb' 0 8 else if j = i then v.extractLsb' 8 8 else m.read j := by
  rw [pixelBytes, Memory.putBytes, Memory.putBytes, Memory.putBytes, Memory.read_put (Memory.put_wf hm hi),
    Memory.read_put hm]

section
variable {s : State} {x y : Word32} (h : s.ready)
include h

theorem exec_setPixel_dropped (v : Word16) (hx : pixelIndex s.rot x.toNat y.toNat = none) :
    exec (.setPixel x y v) s = .next { s with resp := some .okUnit } := by
  have hexec : exec (.setPixel x y v) s = setPixelRule x y v s := accept_of_ready h rfl
  obtain ⟨hs, -⟩ := h
  simp only [hexec, setPixelRule, hx, State.respond, hs]

theorem exec_setPixel_written {i : Nat} (v : Word16) (hx : pixelIndex s.rot x.toNat y.toNat = some i) :
    exec (.setPixel x y v) s =
      .next { s with fb := s.fb.putBytes i (pixelBytes v), resp := some .okUnit } := by
  have hexec : exec (.setPixel x y v) s = setPixelRule x y v s := accept_of_ready h rfl
  obtain ⟨hs, -⟩ := h
  simp only [hexec, setPixelRule, hx, memWrite_pixel hx, State.respond, hs]

end

/-- Settles O28: the mapper drops the pixel or gives an offset, where the two bytes are read back. -/
theorem setPixelWritesBothBytesOrNeither : Obligations.SetPixelWritesBothBytesOrNeither := by
  refine ⟨fun q x y v hq => decode_request_setPixel_iff hq, fun s x y v h hm =>
    ⟨exec_setPixel_dropped h v, fun i hx => ⟨_, exec_setPixel_written h v hx, ?_⟩⟩⟩
  obtain ⟨-, hi⟩ := pixelIndex_bound hx
  have hread := Memory.read_putBytes_pixel hm (show i < fbLen by omega) v
  refine ⟨?_, ?_, fun j hj hj' => ?_⟩
  · rw [hread, if_neg (by omega), if_pos rfl]
  · rw [hread, if_pos rfl]
  · rw [hread, if_neg hj', if_neg hj]

end Sys2Proof.Machine

/-! The draw window and the transfer (43_display_transfer.md): the data stream, SET_DRAW_AREA with its order check, and FLUSH,
which programs the full window and writes the whole framebuffer. -/

namespace Sys2Proof.Machine

/-! ## The data stream (R232) -/

/-- Settles O15: the data stream is the one wire form whose actions begin with the data level. -/
theorem dataStreamCompletes : Obligations.DataStreamCompletes :=
  fun _ => completesWith_of_wireActions rfl rfl

/-! ## The encoding of SET_DRAW_AREA (R103, R105) -/

/-- An operand is the point (x, y) exactly where it fits two Bytes and they are x and y. -/
theorem point_operand_iff {a : BitVec 32} {x y : Byte} :
    a.toNat < 2 ^ 16 ∧ a.extractLsb' 0 8 = x ∧ a.extractLsb' 8 8 = y ↔ a.toNat = y.toNat * 2 ^ 8 + x.toNat := by
  constructor
  · rintro ⟨h, rfl, rfl⟩
    exact (congrArg BitVec.toNat (packPoint_extract h)).symm.trans (packPoint_toNat _ _)
  · intro h
    have ha : a = packPoint x y := BitVec.eq_of_toNat_eq (h.trans (packPoint_toNat x y).symm)
    subst ha
    exact ⟨by have := x.isLt; have := y.isLt; omega, packPoint_x x y, packPoint_y x y⟩

/-- SET_DRAW_AREA uses the low two Bytes of `a` and of `b`. -/
theorem unusedAreZero_iff_of_point_operands {q : Request} (h : q.op.toNat = 6) :
    unusedAreZero q = true ↔ q.v = 0#16 ∧ q.r = 0#2 ∧ q.a.toNat < 2 ^ 16 ∧ q.b.toNat < 2 ^ 16 := by
  rw [unusedAreZero_iff]
  simp [h]

theorem decode_request_setDrawArea_iff {q : Request} {sx sy ex ey : Byte} (hq : q.op = 0x6#4) :
    decode (.request q) = .ok (.setDrawArea sx sy ex ey) ↔
      q.a.toNat = sy.toNat * 2 ^ 8 + sx.toNat ∧ q.b.toNat = ey.toNat * 2 ^ 8 + ex.toNat ∧ q.v = 0#16 ∧ q.r = 0#2 := by
  have hr : reservedOp q.op = false := by rw [hq]; rfl
  have hi : requestInstr q = .ok (.setDrawArea (q.a.extractLsb' 0 8) (q.a.extractLsb' 8 8) (q.b.extractLsb' 0 8)
      (q.b.extractLsb' 8 8)) := by simp [requestInstr, hq]
  rw [decode_request_ok_iff, unusedAreZero_iff_of_point_operands (by simp [hq]), hi, Except.ok.injEq,
    Instr.setDrawArea.injEq, ← point_operand_iff, ← point_operand_iff]
  tauto

/-! ## SET_DRAW_AREA (R230, R231) -/

theorem inOrder_iff {sx sy ex ey : Byte} :
    inOrder sx sy ex ey = true ↔ sx.toNat < ex.toNat ∧ sy.toNat < ey.toNat := by
  simp [inOrder]

/-- An exclusive end past its start is not 0, so the column or row before it does not wrap. -/
theorem toNat_end_sub_one {first e : Byte} (h : first.toNat < e.toNat) : (e - 1#8).toNat = e.toNat - 1 := by
  bv_omega

/-- A host operation on an Idle block that runs its actions, all of them answered Ok: the whole next state. -/
theorem start_host_ok_of_idle {i : Instr} {s : State} {rest : List Answer} (hs : s.seq = .idle) (hw : i.isWire = false)
    (hr : s.replies = List.replicate (demand (actionsOf i s)) .ok ++ rest) :
    start i s = .next { s with
      replies := rest, dc := latchAfter (actionsOf i s) s.dc, resp := some .okUnit,
      trace := s.trace ++ okEvents (actionsOf i s) } := by
  rw [start_host_ok hw hr, State.sent, State.respond, ← hs]

theorem okEvents_drawAreaCommands (sx sy ex ey : Byte) :
    okEvents ((drawAreaCommands sx sy ex ey).flatMap wireActions) =
      sentOk [[0x15#8, sx, lastOf ex], [0x75#8, sy, lastOf ey]] :=
  okEvents_flatMap_wireActions rfl

/-- Settles O29: a window in order runs its two sends, all answered Ok. -/
theorem drawAreaSendsTheWindow : Obligations.DrawAreaSendsTheWindow := by
  refine ⟨fun q sx sy ex ey => decode_request_setDrawArea_iff, fun s sx sy ex ey rest h hx hy hr =>
    ⟨toNat_end_sub_one hx, toNat_end_sub_one hy, ?_⟩⟩
  have ho := inOrder_iff.mpr ⟨hx, hy⟩
  have hactions := actionsOf_setDrawArea_inOrder (s := s) ho
  have hdemand : demand (actionsOf (.setDrawArea sx sy ex ey) s) = 4 := by
    rw [hactions, demand_flatMap_wireActions (kind_of_mem_drawAreaCommands sx sy ex ey)]
    rfl
  have hexec := exec_setDrawArea_inOrder h ho
  obtain ⟨hs, -⟩ := h
  rw [hexec, start_host_ok_of_idle hs rfl (by rw [hdemand]; exact hr), hactions, okEvents_drawAreaCommands]
  rfl

/-- SET_DRAW_AREA with an empty or reversed window raises the sticky fault and nothing else (R231, R272). -/
theorem exec_setDrawArea_reversed {s : State} {sx sy ex ey : Byte} (h : s.ready) (ho : ¬ inOrder sx sy ex ey = true) :
    exec (.setDrawArea sx sy ex ey) s = .next { s with life := .faulted } := by
  have hexec : exec (.setDrawArea sx sy ex ey) s = setDrawAreaRule sx sy ex ey s := accept_of_ready h rfl
  obtain ⟨hs, -⟩ := h
  rw [hexec, setDrawAreaRule, if_neg ho, State.raiseFault, ← hs]

/-- Settles O30: the order check fails, and the gate refuses every request at life = Faulted. -/
theorem reversedDrawAreaFaults : Obligations.ReversedDrawAreaFaults := by
  intro s sx sy ex ey h hrev
  have ho : ¬ inOrder sx sy ex ey = true := by
    rw [inOrder_iff]
    omega
  refine ⟨exec_setDrawArea_reversed h ho, fun q rest => ?_⟩
  obtain ⟨hs, -⟩ := h
  exact step_request_refused hs rfl rfl (requestGate_of_faulted q)

/-! ## FLUSH (R232, R233) -/

theorem exec_flush {s : State} (h : s.ready) : exec .flush s = .next (runActions .flush 0 (actionsOf .flush s) s) :=
  accept_of_ready (rule := start .flush) h rfl

/-- FLUSH is held, or runs its actions on a live Idle block. -/
theorem exec_flush_cases {s t : State} (h : exec .flush s = .next t) :
    ((∃ op k, s.seq = .busy op k) ∧ t = s) ∨ (s.ready ∧ t = runActions .flush 0 (actionsOf .flush s) s) := by
  rcases exec_cases h with hheld | ⟨hs, hg, -⟩
  · exact .inl hheld
  · have hready : s.ready := ⟨hs, live_of_instrGate rfl hg⟩
    rw [exec_flush hready] at h
    cases h
    exact .inr ⟨hready, rfl⟩

theorem actionsOf_flush (s : State) :
    actionsOf .flush s =
      (drawAreaCommands 0#8 0#8 (flushWindow s.cfg s.rot).1 (flushWindow s.cfg s.rot).2).flatMap wireActions ++
        [.dcSet .data, .write (s.fb.bytes 0 fbLen)] := by
  rw [actionsOf, flushCommands, List.flatMap_append, List.flatMap_singleton]
  rfl

theorem demand_actionsOf_flush (s : State) : demand (actionsOf .flush s) = 6 := by
  rw [actionsOf_flush, demand_append, demand_flatMap_wireActions (kind_of_mem_drawAreaCommands _ _ _ _)]
  rfl

theorem okEvents_actionsOf_flush (s : State) :
    okEvents (actionsOf .flush s) =
      sentOk [[0x15#8, 0#8, lastOf (flushWindow s.cfg s.rot).1], [0x75#8, 0#8, lastOf (flushWindow s.cfg s.rot).2]] ++
        [⟨.dcSet .data, .ok⟩, ⟨.write (s.fb.bytes 0 fbLen), .ok⟩] := by
  rw [actionsOf_flush, okEvents_append, okEvents_drawAreaCommands]
  rfl

theorem latchAfter_actionsOf_flush (s : State) (d : DcLatch) :
    latchAfter (actionsOf .flush s) d = .driven .data := by
  rw [actionsOf_flush, latchAfter, List.foldl_append]
  rfl

/-- FLUSH with all six actions answered Ok: the two sends of its window, then the framebuffer. -/
theorem exec_flush_ok {s : State} {rest : List Answer} (h : s.ready) (hr : s.replies = List.replicate 6 .ok ++ rest) :
    exec .flush s = .next { s with
      replies := rest, dc := .driven .data, resp := some .okUnit,
      trace := s.trace ++
        sentOk [[0x15#8, 0#8, lastOf (flushWindow s.cfg s.rot).1], [0x75#8, 0#8, lastOf (flushWindow s.cfg s.rot).2]] ++
        [⟨.dcSet .data, .ok⟩, ⟨.write (s.fb.bytes 0 fbLen), .ok⟩] } := by
  have hexec : exec .flush s = start .flush s := accept_of_ready h rfl
  obtain ⟨hs, -⟩ := h
  rw [hexec, start_host_ok_of_idle hs rfl (demand_actionsOf_flush s ▸ hr), latchAfter_actionsOf_flush,
    okEvents_actionsOf_flush, ← List.append_assoc]

/-- The payload of FLUSH is the framebuffer, offset 0 first (R64, R234). -/
theorem Memory.bytes_whole_getElem? (m : Memory) {j : Nat} (h : j < 12288) :
    (m.bytes 0 fbLen)[j]? = some (m.read j) := by
  rw [m.bytes_getElem? 0 fbLen j h, Nat.zero_add]

/-- FLUSH's window is turned where the parameter is set and the rotation is, and native otherwise (R233). -/
theorem flushWindow_turned {c : Config} {rot : Rotation} (hc : c.flushWindowRotated = true)
    (hrot : isTurned rot = true) : flushWindow c rot = (64#8, 96#8) := by
  simp [flushWindow, hc, hrot]

theorem flushWindow_native {c : Config} {rot : Rotation} (h : c.flushWindowRotated = false ∨ isTurned rot = false) :
    flushWindow c rot = (96#8, 64#8) := by
  rcases h with h | h <;> simp [flushWindow, h]

/-- Settles O31: the native window, then the framebuffer. -/
theorem flushSendsTheWholeFramebuffer : Obligations.FlushSendsTheWholeFramebuffer := by
  refine ⟨encodedPlainly_of_no_operands rfl (by decide) fun q hq => by simp [requestInstr, hq],
    fun s rest h hc hr => ⟨s.fb.bytes 0 fbLen, s.fb.bytes_length 0 fbLen, fun j => s.fb.bytes_whole_getElem?, ?_⟩⟩
  rw [exec_flush_ok h hr, flushWindow_native (.inl hc)]
  rfl

/-- Settles O32: running actions leaves `fb`, `rot` and `life`, and the last action is the Write of the framebuffer. -/
theorem flushOnlyReadsTheFramebuffer : Obligations.FlushOnlyReadsTheFramebuffer := by
  refine ⟨fun s t h => ?_, fun s rest h hr => ⟨_, s.fb.bytes 0 fbLen, exec_flush_ok h hr, ?_, s.fb.bytes_length 0 fbLen,
    fun j => s.fb.bytes_whole_getElem?⟩⟩
  · rcases exec_flush_cases h with ⟨-, rfl⟩ | ⟨-, rfl⟩
    · exact ⟨rfl, rfl, rfl⟩
    · exact ⟨runActions_fb .., runActions_rot .., runActions_life ..⟩
  · rw [List.getLast?_append]
    rfl

/-- Settles O33: the window of the rotation is the first two sends. -/
theorem flushWindowFollowsRotationIfSet : Obligations.FlushWindowFollowsRotationIfSet := by
  intro s rest h hc hr
  refine ⟨_, exec_flush_ok h hr, fun hrot => ?_, fun hrot => ?_⟩
  · rw [flushWindow_turned hc (isTurned_eq_true_iff.mpr hrot)]
    exact List.prefix_append _ _
  · rw [flushWindow_native (.inr (isTurned_eq_false_iff.mpr hrot))]
    exact List.prefix_append _ _

/-! ## FLUSH and the rotation (R233) -/

/-- Running a given list of actions does not read `rot`. -/
theorem runActions_set_rot (op : Instr) (k : Nat) (as : List Action) (s : State) (r : Rotation) :
    runActions op k as { s with rot := r } = { runActions op k as s with rot := r } := by
  induction as generalizing k s with
  | nil => simp only [runActions, State.complete_eq]
  | cons a as ih =>
    cases hn : nextReply a s.replies with
    | ok rest =>
      rw [runActions_cons_ok hn, runActions_cons_ok (s := { s with rot := r }) hn]
      exact ih (k + 1) (s.answeredOk op k a rest)
    | err e v rest =>
      rw [runActions_cons_err hn, runActions_cons_err (s := { s with rot := r }) hn]
      rfl
    | silent =>
      rw [runActions_cons_silent hn, runActions_cons_silent (s := { s with rot := r }) hn]
      rfl

theorem actionsOf_flush_set_rot {s : State} (hc : s.cfg.flushWindowRotated = false) (r : Rotation) :
    actionsOf .flush { s with rot := r } = actionsOf .flush s := by
  rw [actionsOf_flush, actionsOf_flush, flushWindow_native (.inl hc), flushWindow_native (.inl hc)]

/-- Settles O34: with the native window the action list does not depend on `rot`, and running it does not read `rot`. -/
theorem flushIgnoresTheRotation : Obligations.FlushIgnoresTheRotation := by
  intro s t r hc h
  rcases exec_flush_cases h with ⟨⟨op, k, hs⟩, rfl⟩ | ⟨hready, rfl⟩
  · exact exec_of_busy (s := { t with rot := r }) hs .flush
  · rw [exec_flush (s := { s with rot := r }) hready, actionsOf_flush_set_rot hc, runActions_set_rot]

end Sys2Proof.Machine

/-! Display size, rotation and release (44_display_rotation.md): the queries DIMENSIONS and ROTATION, SET_ROTATION with its one
remap command, and RELEASE. -/

namespace Sys2Proof.Machine

/-- The response of an Idle block is written, and nothing else (R251). -/
theorem State.respond_of_idle {s : State} (hs : s.seq = .idle) (v : Resp) : s.respond v = { s with resp := some v } := by
  rw [State.respond, ← hs]

/-! ## DIMENSIONS and ROTATION (R250, R251, R255) -/

theorem logicalDims_native {rot : Rotation} (h : rot = .deg0 ∨ rot = .deg180) : logicalDims rot = (96#8, 64#8) := by
  simp [logicalDims, isTurned_eq_false_iff.mpr h]

theorem logicalDims_turned {rot : Rotation} (h : rot = .deg90 ∨ rot = .deg270) : logicalDims rot = (64#8, 96#8) := by
  simp [logicalDims, isTurned_eq_true_iff.mpr h]

theorem exec_dimensions {s : State} (h : s.ready) :
    exec .dimensions s = .next { s with resp := some (.okDims (logicalDims s.rot).1 (logicalDims s.rot).2) } := by
  have hexec : exec .dimensions s = dimensionsRule s := accept_of_ready h rfl
  obtain ⟨hs, -⟩ := h
  rw [hexec, dimensionsRule, State.respond_of_idle hs]

theorem exec_rotation {s : State} (h : s.ready) :
    exec .rotation s = .next { s with resp := some (.okRot s.rot) } := by
  have hexec : exec .rotation s = rotationRule s := accept_of_ready h rfl
  obtain ⟨hs, -⟩ := h
  rw [hexec, rotationRule, State.respond_of_idle hs]

/-- Settles O35: the logical size is the native one or the swapped one, as the rotation is. -/
theorem dimensionsReportsTheLogicalSize : Obligations.DimensionsReportsTheLogicalSize := by
  refine ⟨encodedPlainly_of_no_operands rfl (by decide) fun q hq => by simp [requestInstr, hq], fun s h =>
    ⟨fun hrot => ?_, fun hrot => ?_, rfl, rfl⟩⟩
  · rw [exec_dimensions h, logicalDims_native hrot]
  · rw [exec_dimensions h, logicalDims_turned hrot]

/-- Settles O36: ROTATION responds the register, whose code is the response's data by definition. -/
theorem rotationReportsTheRegister : Obligations.RotationReportsTheRegister :=
  ⟨encodedPlainly_of_no_operands rfl (by decide) fun q hq => by simp [requestInstr, hq], fun _ => exec_rotation,
    fun _ => rfl⟩

/-- Settles O37: both queries answer the state with a response. -/
theorem queriesChangeOnlyTheResponse : Obligations.QueriesChangeOnlyTheResponse := by
  simp only [Obligations.QueriesChangeOnlyTheResponse, List.forall_mem_cons, List.not_mem_nil, false_imp_iff,
    implies_true, and_true]
  exact ⟨fun _ h => ⟨_, exec_dimensions h⟩, fun _ h => ⟨_, exec_rotation h⟩⟩

/-! ## SET_ROTATION (R252, R253) -/

/-- The encoding of SET_ROTATION: op 9 with the rotation code, every other operand bit 0 (R103, R105). -/
theorem decode_request_setRotation_iff {q : Request} {r : Rotation} (hq : q.op = 0x9#4) :
    decode (.request q) = .ok (.setRotation r) ↔ q.a = 0#32 ∧ q.b = 0#32 ∧ q.v = 0#16 ∧ q.r = r.bits := by
  have hr : reservedOp q.op = false := by rw [hq]; rfl
  have hi : requestInstr q = .ok (.setRotation (rotationOfBits q.r)) := by simp [requestInstr, hq]
  rw [decode_request_ok_iff, unusedAreZero_iff_of_rotation_operand (by simp [hq]), hi, ← rotationOfBits_eq_iff]
  simp [hr, and_assoc]

/-- On a live Idle block SET_ROTATION writes `rot` and then runs the two actions of one send. -/
theorem exec_setRotation {s : State} (h : s.ready) (r : Rotation) :
    exec (.setRotation r) s = .next (runActions (.setRotation r) 0
      [.dcSet .cmd, .write [0xA0#8, remapByte s.cfg r]] { s with rot := r }) :=
  accept_of_ready (rule := setRotationRule r) h rfl

/-- Settles O38: the send runs on the state with the new `rot`, which no answer takes back. -/
theorem setRotationCommitsBeforeTheSend : Obligations.SetRotationCommitsBeforeTheSend := by
  refine ⟨fun q r => decode_request_setRotation_iff, fun s r h => ?_⟩
  have hexec := exec_setRotation h r
  obtain ⟨hs, -⟩ := h
  refine ⟨fun rest hr => ?_, fun e rest hr => ?_, fun e rest hr => ?_, fun hr => ?_, fun hr => ?_⟩
  · exact hexec.trans (start_host_ok_of_idle (i := .setRotation r) (s := { s with rot := r }) hs rfl hr)
  · rw [hexec, runActions_send_dcErr (s := { s with rot := r }) hr, hs]
  · rw [hexec, runActions_send_writeErr (s := { s with rot := r }) hr, hs]
  · rw [hexec, runActions_cons_silent (by rw [hr]; rfl), State.waiting]
  · rw [hexec, runActions_send_writeSilent (s := { s with rot := r }) hr]

/-! ## RELEASE (R256, R104) -/

theorem exec_release {s : State} (h : s.ready) :
    exec .release s = .next { s with life := .released, resp := some .okUnit } := by
  have hexec : exec .release s = releaseRule s := accept_of_ready h rfl
  obtain ⟨hs, -⟩ := h
  rw [hexec, releaseRule, State.respond_of_idle (s := { s with life := .released }) hs]

/-- The gate of a released block is closed to every operation but NEW (R104). -/
theorem instrGate_released {i : Instr} (h : i.kind = .operate) : instrGate i .released = some .noInstance := by
  simp [instrGate, h, lifeGate]

/-- Settles O39: after RELEASE the gate refuses the operations with NoInstance and lets NEW construct. -/
theorem releaseEndsTheInstance : Obligations.ReleaseEndsTheInstance := by
  refine ⟨encodedPlainly_of_no_operands rfl (by decide) fun q hq => by simp [requestInstr, hq], fun s h =>
    ⟨exec_release h, ?_⟩⟩
  obtain ⟨hs, -⟩ := h
  exact ⟨fun i hi => exec_refused (s := { s with life := .released }) hs (instrGate_released hi),
    fun r => ⟨_, exec_new_accepted (s := { s with life := .released }) hs (.inr rfl), rfl⟩⟩

end Sys2Proof.Machine

/-! Errors and hangs (60_exceptions.md): every operation at its first failed and at an unanswered action, and the operations
that cannot fail. -/

namespace Sys2Proof.Machine

/-! ## What a failed action reports (R270) -/

/-- A failed Write is a CommunicationError, a failed pin action a PinError. -/
theorem nextReply_err_iff {a : Action} {e : Nat} {v : Resp} {rest : List Answer} :
    nextReply a (.err e :: rest) = .err e v rest ↔
      ((∃ bytes, a = .write bytes) ∧ v = .commErr ⟨e⟩) ∨
        (((∃ l, a = .dcSet l) ∨ ∃ l, a = .rstSet l) ∧ v = .pinErr ⟨e⟩) := by
  cases a with
  | write | dcSet | rstSet | delay => simp [nextReply, eq_comm]

/-! ## The operations with actions (R274, R275) -/

/-- An accepted operation that has actions runs them. SET_ROTATION alone does so on another state, the one with its operand
in `rot` (R253), and that state has the same actions. -/
theorem exec_runs_actions {i : Instr} {s : State} (h : s.ready) (hk : i.kind = .operate) (ha : actionsOf i s ≠ []) :
    ∃ rot, exec i s = .next (runActions i 0 (actionsOf i s) { s with rot := rot }) ∧
      actionsOf i { s with rot := rot } = actionsOf i s ∧
      ((∀ r, i ≠ .setRotation r) → rot = s.rot) ∧ ∀ r, i = .setRotation r → rot = r := by
  obtain ⟨hs, hl⟩ := h
  obtain ⟨t, ht, hr⟩ := exec_ruled i hs (hl ▸ instrGate_live hk)
  cases hr with
  | new r hi => subst hi; cases hk
  | setRotation r hi =>
    subst hi
    exact ⟨r, ht, rfl, fun hne => absurd rfl (hne r), fun r' hi => Instr.setRotation.inj hi⟩
  | run _ hne => exact ⟨s.rot, ht, rfl, fun _ => rfl, fun r hi => absurd hi (hne r)⟩
  | reversed sx sy ex ey hi ho => exact absurd (by simp [hi, actionsOf, ho]) ha
  | clear hi | dropped x y v hi | written x y v j hi | dimensions hi | rotation hi | release hi =>
    exact absurd (by rw [hi]; rfl) ha

/-- Settles O21: the run passes over the actions answered Ok and ends at the failed one, on the state `exec_runs_actions`
names. -/
theorem operationEndsAtFirstError : Obligations.OperationEndsAtFirstError := by
  intro i s pre post a e v rest h hk hacts hr hv
  obtain ⟨rot, hexec, -, hrot, hset⟩ := exec_runs_actions h hk (by simp [hacts])
  rw [hacts, runActions_err_after_ok (s := { s with rot := rot }) hr (nextReply_err_iff.mpr hv)] at hexec
  obtain ⟨-, hl⟩ := h
  refine ⟨_, hexec, rfl, rfl, hl, rfl, rfl, rfl, rfl, rfl, rfl, hrot, hset, ?_, fun hne => ?_⟩
  · rintro ⟨l, rfl⟩
    rfl
  · exact dcAfterErr_of_ne_dcSet (fun l heq => hne l heq.symm) _

/-- Where an action meets no answer after others were answered Ok, the block waits at it (R275). -/
theorem runActions_silent_after_ok {op : Instr} {k : Nat} {pre post : List Action} {a : Action} {s : State}
    (hr : s.replies = List.replicate (demand pre) .ok) (ha : a.takesAnswer = true) :
    runActions op k (pre ++ a :: post) s = s.ran op k pre [] := by
  rw [runActions_append (rest := []) (by rw [hr, List.append_nil]), runActions_cons_silent (nextReply_nil ha),
    State.waiting_of_busy rfl]

/-- Settles O22: the block waits at the action, which is still its next one and still has no answer. -/
theorem unansweredActionHangsTheBlock : Obligations.UnansweredActionHangsTheBlock := by
  intro i s pre post a h hk hacts ha hr
  obtain ⟨rot, hexec, hsame, -⟩ := exec_runs_actions h hk (by simp [hacts])
  rw [hacts, runActions_silent_after_ok (s := { s with rot := rot }) hr ha] at hexec
  obtain ⟨-, hl⟩ := h
  set t := State.ran i 0 pre [] { s with rot := rot }
  have hseq : t.seq = .busy i pre.length := congrArg (Seq.busy i) (Nat.zero_add _)
  have htacts : actionsOf i t = pre ++ a :: post := (actionsOf_congr i rfl rfl rfl).trans (hsame.trans hacts)
  have hnext : (actionsOf i t).drop pre.length = a :: post := by rw [htacts, List.drop_left]
  refine ⟨t, hexec, hseq, ?_, rfl, rfl, hl, rfl, rfl, rfl, step_busy_silent hseq hnext (nextReply_nil ha)⟩
  simp [State.outstanding, hseq, htacts]

/-! ## The operations that cannot fail (R271) -/

/-- A rule without actions responds Ok and is done, but for the sticky fault of SET_DRAW_AREA (R272). -/
theorem ruled_without_actions_ok {i : Instr} {s t : State} (hr : Ruled i s t) (ha : actionsOf i s = [])
    (hne : ∀ sx sy ex ey, i ≠ .setDrawArea sx sy ex ey) :
    t.trace = s.trace ∧ t.seq = .idle ∧ ∃ v, t.resp = some v ∧ v.status = 0#2 := by
  cases hr with
  | new | clear | dropped | written | dimensions | rotation | release => exact ⟨rfl, rfl, _, rfl, rfl⟩
  | reversed sx sy ex ey hi => exact absurd hi (hne sx sy ex ey)
  | setRotation r hi => subst hi; cases ha
  | run _ _ hacts => exact absurd ha hacts

/-- A CommunicationError after actions without a Write was there before them. -/
theorem commErr_of_runActions_without_write {op : Instr} {k : Nat} {as : List Action} {s : State} {e : CommE}
    (h : ∀ bytes, .write bytes ∉ as) (hc : (runActions op k as s).resp = some (.commErr e)) :
    s.resp = some (.commErr e) := by
  rcases runActions_cases op k as s with ⟨rest, -, hrun⟩ | ⟨pre, a, post, e', v, rest, has, -, -, hn, hrun⟩ |
    ⟨pre, a, post, -, -, -, hrun⟩
  · rw [hrun, State.complete_eq] at hc
    cases hw : op.isWire <;> simp only [hw] at hc
    · cases hc
    · exact hc
  · rw [hrun] at hc
    cases hc
    rcases nextReply_err_iff.mp hn with ⟨⟨bytes, rfl⟩, -⟩ | ⟨-, hv⟩
    · exact absurd (has ▸ List.mem_append_right pre List.mem_cons_self) (h bytes)
    · cases hv
  · rw [hrun] at hc
    exact hc

/-- Settles O45: six operations and NEW have no action, and RESET has no Write among its actions. -/
theorem errorsComeOnlyFromActions : Obligations.ErrorsComeOnlyFromActions := by
  intro i s t hs h
  rcases exec_cases h with ⟨⟨op, k, hbusy⟩, -⟩ | ⟨-, hg, hr⟩
  · cases hs.symm.trans hbusy
  refine ⟨fun hi => ruled_without_actions_ok hr ?_ ?_, fun hi e hc => ?_⟩
  · rcases hi with ⟨r, rfl⟩ | rfl | ⟨x, y, v, rfl⟩ | rfl | rfl | rfl <;> rfl
  · rcases hi with ⟨r, rfl⟩ | rfl | ⟨x, y, v, rfl⟩ | rfl | rfl | rfl <;> nofun
  · subst hi
    rw [exec_reset ⟨hs, live_of_instrGate rfl hg⟩] at h
    cases h
    exact commErr_of_runActions_without_write (by simp [resetActions]) hc

end Sys2Proof.Machine

/-! Termination (70_reset_and_hazards.md R311): every operation is done after its fixed number of actions. -/

namespace Sys2Proof.Machine

/-! ## The lengths of the action lists (R311) -/

/-- The model's action lists have the lengths of R311's table, the four of SET_DRAW_AREA where its window is in order. -/
theorem length_actionsOf {i : Instr} (s : State)
    (h : ∀ sx sy ex ey, i = .setDrawArea sx sy ex ey → inOrder sx sy ex ey = true) :
    (actionsOf i s).length = actionCount i := by
  cases i with
  | setDrawArea sx sy ex ey =>
    rw [actionsOf_setDrawArea_inOrder (h sx sy ex ey rfl)]
    rfl
  | _ => rfl

theorem length_okEvents (as : List Action) : (okEvents as).length = as.length :=
  List.length_map _

theorem demand_le_length (as : List Action) : demand as ≤ as.length :=
  List.countP_le_length

theorem actionsOf_construct {i : Instr} (h : i.kind = .construct) (s : State) : actionsOf i s = [] := by
  cases i with
  | new r => rfl
  | _ => cases h

/-! ## Completion (R34, R311) -/

/-- An operation with actions, all of them answered Ok, has put each of them on the trace and responded `Ok(())`. -/
theorem exec_operate_ok {i : Instr} {s : State} {rest : List Answer} (h : s.ready) (hk : i.kind = .operate)
    (ha : actionsOf i s ≠ []) (hr : s.replies = List.replicate (demand (actionsOf i s)) .ok ++ rest) :
    ∃ t, exec i s = .next t ∧ t.seq = .idle ∧ t.trace = s.trace ++ okEvents (actionsOf i s) ∧
      t.resp = some .okUnit := by
  obtain ⟨rot, hexec, hsame, -⟩ := exec_runs_actions h hk ha
  have hw : i.isWire = false := by rw [Instr.isWire, hk]; rfl
  rw [runActions_ok (s := { s with rot := rot }) hr, State.complete_eq, hw] at hexec
  exact ⟨_, hexec, rfl, rfl, rfl⟩

/-- Settles O46: an operation without actions is done at once, any other when the environment has answered each of its
actions. -/
theorem operationsCompleteAfterTheirActions : Obligations.OperationsCompleteAfterTheirActions := by
  intro i s n hs hlife hwindow hr hn
  have hlen : (actionsOf i s).length = actionCount i :=
    length_actionsOf s fun sx sy ex ey hi => inOrder_iff.mpr (hwindow sx sy ex ey hi)
  by_cases ha : actionsOf i s = []
  · have hgate : instrGate i s.life = none := by
      rcases hlife with ⟨hk, hl⟩ | ⟨hk, hl | hl⟩ <;> simp [instrGate, hk, hl]
    obtain ⟨t, hexec, hruled⟩ := exec_ruled i hs hgate
    have hcount : actionCount i = 0 := by rw [← hlen, ha, List.length_nil]
    have hdraw : ∀ sx sy ex ey, i ≠ .setDrawArea sx sy ex ey := by
      rintro sx sy ex ey rfl
      cases hcount
    obtain ⟨htrace, hseq, hresp⟩ := ruled_without_actions_ok hruled ha hdraw
    exact ⟨t, hexec, hseq, by rw [htrace, hcount, Nat.add_zero], hresp⟩
  · rcases hlife with ⟨hk, hl⟩ | ⟨hk, -⟩
    · have henough : demand (actionsOf i s) ≤ n := (demand_le_length _).trans (hlen ▸ hn)
      obtain ⟨m, rfl⟩ := Nat.exists_eq_add_of_le henough
      obtain ⟨t, hexec, hseq, htrace, hresp⟩ := exec_operate_ok ⟨hs, hl⟩ hk ha (hr.trans (List.replicate_add _ _ _))
      refine ⟨t, hexec, hseq, ?_, .okUnit, hresp, rfl⟩
      rw [htrace, List.length_append, length_okEvents, hlen]
    · exact absurd (actionsOf_construct hk s) ha

end Sys2Proof.Machine

/-! The decoder read backwards (30_encoding.md): every raw word that decodes is the encoding of its instruction, so that
decoder and encoder are inverse to each other, and a table word is decoded by encoding. -/

namespace Sys2Proof.Machine

/-! ## The words of commands (R90 to R101) -/

/-- A decoder that tests for one word after the other reads the encoding of its answer, where each of its branches does. -/
theorem encode_of_ite {α : Type} {F : Instr → α} (hF : F.Injective) {c : Prop} [Decidable c] {a i : Instr} {r : α}
    {f : Fetch} (ha : c → encode a = f) (hr : r = F i → encode i = f) : (if c then F a else r) = F i → encode i = f := by
  split
  · exact fun h => hF h ▸ ha ‹c›
  · exact hr

theorem encode_of_cmd1Instr {op : Byte} {i : Instr} : cmd1Instr op = some i → encode i = .send [op] := by
  unfold cmd1Instr
  iterate 6 refine encode_of_ite (Option.some_injective _) (by rintro rfl; rfl) ?_
  exact nofun

/-- The two packed operands are put together from the nibbles they were taken apart into (R94, R95). -/
theorem encode_of_cmd2Instr {op p : Byte} {i : Instr} : cmd2Instr op p = some i → encode i = .send [op, p] := by
  unfold cmd2Instr
  iterate 9
    refine encode_of_ite (Option.some_injective _) (by rintro rfl; simp [encode, clockDivOperand, preChargeOperand]) ?_
  exact encode_of_ite (Option.some_injective _) (by rintro ⟨rfl, -⟩; rfl) nofun

theorem encode_of_cmd3Instr {op s e : Byte} {i : Instr} : cmd3Instr op s e = some i → encode i = .send [op, s, e] := by
  unfold cmd3Instr
  iterate 2 refine encode_of_ite (Option.some_injective _) (by rintro rfl; rfl) ?_
  exact nofun

theorem encode_of_commandInstr {bytes : List Byte} {i : Instr} (h : commandInstr bytes = some i) :
    encode i = .send bytes := by
  rcases bytes with _ | ⟨op, _ | ⟨p, _ | ⟨e, _ | ⟨b, bs⟩⟩⟩⟩
  · cases h
  · exact encode_of_cmd1Instr h
  · exact encode_of_cmd2Instr h
  · exact encode_of_cmd3Instr h
  · cases h

/-! ## The words of requests (R102 to R105) -/

section
variable {q : Request} {n : BitVec 4} (hu : unusedAreZero q = true)
include hu

/-- A request for an operation without operands is its op alone. -/
theorem plainRequest_eq_of_op (hn : n.toNat ∉ [1, 5, 6, 9]) (hq : q.op = n) : plainRequest n = .request q := by
  subst hq
  obtain ⟨op, a, b, v, r⟩ := q
  obtain ⟨rfl, rfl, rfl, rfl⟩ := (unusedAreZero_iff_of_no_operands hn).mp hu
  rfl

/-- A request of NEW or SET_ROTATION is its op and its rotation code. -/
theorem rotationRequest_eq_of_op (hn : n.toNat = 1 ∨ n.toNat = 9) (hq : q.op = n) :
    Fetch.request ⟨n, 0#32, 0#32, 0#16, (rotationOfBits q.r).bits⟩ = .request q := by
  subst hq
  obtain ⟨op, a, b, v, r⟩ := q
  obtain ⟨rfl, rfl, rfl⟩ := (unusedAreZero_iff_of_rotation_operand hn).mp hu
  rw [bits_rotationOfBits]

theorem encode_setPixel_of_op (hq : q.op = 0x5#4) : encode (.setPixel q.a q.b q.v) = .request q := by
  obtain ⟨op, a, b, v, r⟩ := q
  subst hq
  obtain rfl := (unusedAreZero_iff_of_pixel_operands rfl).mp hu
  rfl

/-- The points read from the low two Bytes of `a` and of `b` are all of `a` and `b`. -/
theorem encode_setDrawArea_of_op (hq : q.op = 0x6#4) :
    encode (.setDrawArea (q.a.extractLsb' 0 8) (q.a.extractLsb' 8 8) (q.b.extractLsb' 0 8) (q.b.extractLsb' 8 8)) =
      .request q := by
  obtain ⟨op, a, b, v, r⟩ := q
  subst hq
  obtain ⟨rfl, rfl, ha, hb⟩ := (unusedAreZero_iff_of_point_operands rfl).mp hu
  rw [encode, packPoint_extract ha, packPoint_extract hb]

/-- The bits that an operation does not use are 0, so its operands determine the request (R105, D1). The cases are ops 1
to 11. -/
theorem encode_of_requestInstr {i : Instr} : requestInstr q = .ok i → encode i = .request q := by
  have hinj : Function.Injective (Except.ok : Instr → Except DecodeError Instr) := fun _ _ => Except.ok.inj
  unfold requestInstr
  refine encode_of_ite hinj (rotationRequest_eq_of_op hu (.inl rfl)) ?_
  iterate 3 refine encode_of_ite hinj (plainRequest_eq_of_op hu (by decide)) ?_
  refine encode_of_ite hinj (encode_setPixel_of_op hu) ?_
  refine encode_of_ite hinj (encode_setDrawArea_of_op hu) ?_
  iterate 2 refine encode_of_ite hinj (plainRequest_eq_of_op hu (by decide)) ?_
  refine encode_of_ite hinj (rotationRequest_eq_of_op hu (.inr rfl)) ?_
  iterate 2 refine encode_of_ite hinj (plainRequest_eq_of_op hu (by decide)) ?_
  exact nofun

end

/-! ## The decoder and the encoder are inverse (R105) -/

theorem encode_of_decode_ok {f : Fetch} {i : Instr} (h : decode f = .ok i) : encode i = f := by
  cases f with
  | request q =>
    obtain ⟨-, hu, hq⟩ := decodeRequest_ok h
    exact encode_of_requestInstr hu hq
  | send bytes => exact encode_of_commandInstr (decodeCommand_ok h)
  | data bytes =>
    simp only [decode, decodeData] at h
    split at h
    · cases h
      rfl
    · cases h

/-- Settles O3: each of the three kinds of word is put together again from what was read of it. -/
theorem encodeOfDecodeIsTheWord : Obligations.EncodeOfDecodeIsTheWord :=
  fun _ _ h => ⟨encode_of_decode_ok h, decode_ok_wellFormed h⟩

/-- O2 and O3 in one. -/
theorem decode_eq_ok_iff {f : Fetch} {i : Instr} : decode f = .ok i ↔ encode i = f ∧ i.wellFormed = true := by
  refine ⟨encodeOfDecodeIsTheWord f i, ?_⟩
  rintro ⟨rfl, hi⟩
  exact decodeOfEncodeIsTheInstruction i hi

/-- A table word stands for the instruction that it is the encoding of. -/
theorem decodeTableWord_eq_some_iff {nbits w : Nat} {i : Instr} :
    decodeTableWord nbits w = some i ↔ encode i = tableWord nbits w ∧ i.wellFormed = true := by
  rw [← decode_eq_ok_iff, decodeTableWord]
  cases decode (tableWord nbits w) <;> simp

/-- Settles O1: each of the eight words is the encoding of its instruction, by evaluation. -/
theorem decodeReadsTheSpecWords : Obligations.DecodeReadsTheSpecWords := by
  simp only [Obligations.DecodeReadsTheSpecWords, decodeTableWord_eq_some_iff]
  decide

end Sys2Proof.Machine
